-- ==== Sys2Proof/Word.lean ====
section
/-! DEFINITION. The words of the part: bytes, frame identifiers and capture clock readings are bits; every other
quantity of the manual is an integer (00_scope.md, Units and Arithmetic) and is a Nat or an Int here. -/

namespace Sys2Proof

/-- One data byte of a frame, of the stage buffer or of the nonvolatile area. -/
abbrev Byte := BitVec 8

/-- A frame identifier: 11 bits (standard, zeros above) or 29 bits (extended); 01 section 1.1. -/
abbrev Ident := BitVec 29

/-- A reading of the capture clock, which counts microseconds and wraps at 2^32; 03 section 3.1. -/
abbrev Clock := BitVec 32

end Sys2Proof
end

