-- ==== Sys2Proof/Syntax.lean ====
section
/-! DEFINITION. The commands of the part: one constructor per row of spec/opcode_table.json, with the row's operands. -/

namespace Sys2Proof

/-- The two frame ports; 01 section 1.1. -/
inductive Port where
  | c | b
deriving DecidableEq, Repr

/-- The two capture channels; 03 section 3.1. -/
inductive CapCh where
  | a | b
deriving DecidableEq, Repr

/-- The three arms; 06. -/
inductive Arm where
  | sl | sr | mb
deriving DecidableEq, Repr

/-- Frame formats: standard (11-bit) and extended (29-bit); 01 section 1.1. -/
inductive Fmt where
  | std | ext
deriving DecidableEq, Repr

/-- A frame: format, identifier and its data bytes, whose number is the frame's length; 01 section 1.1. -/
structure Frame where
  fmt : Fmt
  id : Ident
  data : List Byte
deriving DecidableEq, Repr

/-- The fault kinds; 10 section 10.1. -/
inductive Kind where
  | signalStale | signalDisagree | senderTableFull | speedDisagree | speedChannelLost | speedNone
  | engineLow | overspeed | armStuck | armObstructed | liftStarved | tankLow | sprayDry
  | sendWindow | portLost | txFull | cutoff | storeInvalid | faultListFull
deriving DecidableEq, Repr

/-- The commands. Timer expiries name the timer; service requests carry the tag and their argument bytes as the
request frame carries them (11 section 11.1). -/
inductive Instr where
  /-- FRAME_RECEIVED: the port reports this frame. -/
  | frameReceived (port : Port) (frame : Frame)
  /-- FRAME_SENT: the link of the port reports its offered record sent. -/
  | frameSent (port : Port)
  /-- WAITING_HOLDER_PLACED: a free place of the port's queue is handed to the longest-waiting holder. -/
  | waitingHolderPlaced (port : Port)
  /-- LINK_LOST. -/
  | linkLost (port : Port)
  /-- LINK_RESTORED. -/
  | linkRestored (port : Port)
  /-- PULSE_EDGE: a rising edge on the channel's pulse line, with the level of its direction line (true is high)
  and the capture clock reading at the edge. -/
  | pulseEdge (ch : CapCh) (dirHigh : Bool) (clock : Clock)
  /-- WINDOW_TIMER_EXPIRY. -/
  | windowTimerExpiry (ch : CapCh)
  /-- STANDSTILL_TIMER_EXPIRY. -/
  | standstillTimerExpiry (ch : CapCh)
  /-- DISAGREEMENT_TIMER_EXPIRY. -/
  | disagreementTimerExpiry
  /-- LOSS_TIMER_EXPIRY. -/
  | lossTimerExpiry (ch : CapCh)
  /-- RETURN_TIMER_EXPIRY. -/
  | returnTimerExpiry (ch : CapCh)
  /-- FRESHNESS_TIMER_EXPIRY of a slot. -/
  | freshnessTimerExpiry (slot : Fin 48)
  /-- SENDER_TIMER_EXPIRY of the record in a place of the sender table. -/
  | senderTimerExpiry (place : Fin 24)
  /-- SILENT_TIME_END of the record in a place of the sender table. -/
  | silentTimeEnd (place : Fin 24)
  /-- GOVERNOR_PERIOD. -/
  | governorPeriod
  /-- OVERSPEED_TIME_LIMIT. -/
  | overspeedTimeLimit
  /-- ARM_PERIOD. -/
  | armPeriod
  /-- MOTION_TIMER_EXPIRY of an arm. -/
  | motionTimerExpiry (arm : Arm)
  /-- FLOAT_TIMER_EXPIRY of an arm. -/
  | floatTimerExpiry (arm : Arm)
  /-- WAIT_TIMER_EXPIRY of an arm. -/
  | waitTimerExpiry (arm : Arm)
  /-- ALLOCATOR_PERIOD. -/
  | allocatorPeriod
  /-- SPRAY_PERIOD. -/
  | sprayPeriod
  /-- LINGER_END. -/
  | lingerEnd
  /-- INTERVAL_TIMER_EXPIRY of a send channel. -/
  | intervalTimerExpiry (ch : Fin 6)
  /-- SEND_COMPLETION of a send channel. -/
  | sendCompletion (ch : Fin 6)
  /-- CUTOFF_ACTIVE: the CUTOFF line becomes active. -/
  | cutoffActive
  /-- CUTOFF_INACTIVE: the CUTOFF line becomes inactive. -/
  | cutoffInactive
  /-- RELEASE_TIMER_EXPIRY. -/
  | releaseTimerExpiry
  /-- DETECTION_TIME_EXPIRY of a kept condition. -/
  | detectionTimeExpiry (kind : Kind) (subject : Nat)
  /-- IGNITION_SHUTDOWN: the IGN line becomes inactive. -/
  | ignitionShutdown
  /-- SHUTDOWN_TIMER_EXPIRY. -/
  | shutdownTimerExpiry
  /-- SLEEP_ENTRY. -/
  | sleepEntry
  /-- WAKE: the IGN line becomes active. -/
  | wake
  /-- COLD_START: power is applied. -/
  | coldStart
  /-- SERVICE_RESTART. -/
  | serviceRestart
  /-- INACTIVITY_TIMER_EXPIRY. -/
  | inactivityTimerExpiry
  /-- STORE_PAGE_STEP: the step in progress ends; `readsBack` says whether the page read back as written. -/
  | storePageStep (readsBack : Bool)
  /-- STORE_COMPLETION: the header page's step ends well. -/
  | storeCompletion
  /-- RECALL_PAGE_READ. -/
  | recallPageRead
  /-- RECALL_COMPLETION: the last page's read ends. -/
  | recallCompletion
  /-- UNKNOWN_REQUEST: a request with this code, and a tag when its frame has one. -/
  | unknownRequest (code : Byte) (tag : Option Byte)
  /-- OPEN_CONFIG. -/
  | openConfig (tag : Byte)
  /-- CLOSE_CONFIG. -/
  | closeConfig (tag : Byte)
  /-- READ_ITEM. -/
  | readItem (tag kind index chunk : Byte)
  /-- STAGE: offset and four data bytes. -/
  | stage (tag offset d0 d1 d2 d3 : Byte)
  /-- COMMIT of a MATCH item. -/
  | commitMatch (tag index : Byte)
  /-- COMMIT of a SLOT item. -/
  | commitSlot (tag index : Byte)
  /-- COMMIT of the ROLE_MAP item. -/
  | commitRoleMap (tag index : Byte)
  /-- COMMIT of a PROFILE item. -/
  | commitProfile (tag index : Byte)
  /-- COMMIT of a CURVE item. -/
  | commitCurve (tag index : Byte)
  /-- COMMIT of the ARM_CONFIG item. -/
  | commitArmConfig (tag index : Byte)
  /-- COMMIT of a TEMPLATE item. -/
  | commitTemplate (tag index : Byte)
  /-- COMMIT of a CHANNEL item. -/
  | commitChannel (tag index : Byte)
  /-- COMMIT of the WINDOWS item. -/
  | commitWindows (tag index : Byte)
  /-- COMMIT of the DRIVE_CONFIG item. -/
  | commitDriveConfig (tag index : Byte)
  /-- COMMIT of the SPRAY_CONFIG item. -/
  | commitSprayConfig (tag index : Byte)
  /-- COMMIT of the PORT_CONFIG item. -/
  | commitPortConfig (tag index : Byte)
  /-- STORE. -/
  | store (tag : Byte)
  /-- RECALL. -/
  | recall (tag : Byte)
  /-- STATUS of a page (0 when the request has no page byte). -/
  | status (tag page : Byte)
  /-- ACK_FAULTS. -/
  | ackFaults (tag : Byte)
  /-- CHANNEL_CONTROL with action 0. -/
  | channelControlEnable (tag channel : Byte)
  /-- CHANNEL_CONTROL with action 1. -/
  | channelControlDisable (tag channel : Byte)
  /-- CHANNEL_CONTROL with action 2. -/
  | channelControlTrigger (tag channel : Byte)
  /-- RESTART. -/
  | restart (tag : Byte)
  /-- CLEAR_VOLUME. -/
  | clearVolume (tag : Byte)
  /-- DROP_SENDERS of a slot, or of all slots (FFh). -/
  | dropSenders (tag slot : Byte)
  /-- POWER_LOSS. -/
  | powerLoss
deriving DecidableEq, Repr

end Sys2Proof
end

