-- ==== Sys2Proof/Decode.lean ====
section
/-! DEFINITION. No row of spec/opcode_table.json gives bits: the part takes events, not words, so no word spells a
command. (A service request does have bytes: those are the data of a received frame, and Machine/Service.lean reads
them.) -/

namespace Sys2Proof

/-- The command that a word of the table spells: none, since the table gives no row any bits; [36]. -/
def decodeTableWord (_nbits _w : Nat) : Option Instr := none

end Sys2Proof
end

