-- ==== Sys2Proof/Config.lean ====
section
/-! DEFINITION. The fixed constants of the manual, and the free values: what the manual leaves open and the model
does not choose. A free value has no body: no proof can see what it is. -/

namespace Sys2Proof.Config

/-- Free value: which of several events that come together is taken first, and in which order the channels that one
event triggers make their offers (00 Time and events; 09 R144, R148). Applied to State's counter `choices`; [2]. -/
opaque tieOrder : Nat → Nat

/-- Free value: whether the page of the step that ends reads back as written, when the model's own idle step takes the
step (12 R181); [6]. -/
opaque pageReadsBack : Nat → Bool

/-- Free value: the byte that a failed or interrupted write of a record page leaves at an address (12 R181); [6]. -/
opaque failedPageByte : Nat → Nat → Byte

/-- Free value: whether the header page that a failed or interrupted write left has all fields in range, and then the
image length it shows (12 R181, R182); [6]. -/
opaque tornHeaderLength : Nat → Option Nat

/-- Free value: a record byte whose content the manual does not state (11 section 11.7: a free SENDER place, the last
value of a sender that has none), by the counter `choices` and the byte's offset; [22]. -/
opaque unstatedByte : Nat → Nat → Byte

/-- Free value: what a 4-byte record field shows for a number that does not fit in it (11 section 11.7, first seen and
entry order of FAULT); [22]. -/
opaque wideField : Nat → Nat

/-- Governor period, ms (05). -/
def governorPeriodMs : Nat := 10
/-- Arm sequencer period, ms (06). -/
def armPeriodMs : Nat := 20
/-- Flow allocator period, ms (07). -/
def allocatorPeriodMs : Nat := 20
/-- Spray doser period, ms (08). -/
def sprayPeriodMs : Nat := 50
/-- Standstill timer of a capture channel, ms (03 R42). -/
def standstillMs : Nat := 400
/-- COUNT window, ms (03 R43). -/
def windowMs : Nat := 20
/-- Disagreement timer, ms (03 R48). -/
def disagreementMs : Nat := 200
/-- Loss timer, ms (03 R49). -/
def lossMs : Nat := 1000
/-- Return timer, ms (03 R50). -/
def returnMs : Nat := 1000
/-- Wait timer of an arm in the lift queue, ms (06 R96). -/
def waitMs : Nat := 20000
/-- Release timer of the cut-off latch, ms (10 R163). -/
def releaseMs : Nat := 10
/-- Inactivity timer of the configuration session, ms (11 R169). -/
def inactivityMs : Nat := 60000
/-- Ignition shutdown, ms (12 R184). -/
def shutdownMs : Nat := 1000
/-- One page step of a STORE, ms (12 R180). -/
def pageStepMs : Nat := 4
/-- One page read of a RECALL, ms (12 R182). -/
def pageReadMs : Nat := 1
/-- Records a transmit queue holds (01 section 1.2). -/
def queuePlaces : Nat := 12
/-- Standstill threshold of |S|, mm/s (03 R52). -/
def standstillSpeed : Nat := 30
/-- Minimum engine speed N_min, rpm (05 section 5.1). -/
def engineMinimum : Nat := 600
/-- Stopping step A_stop, mm/s per period (05 section 5.1). -/
def stopStep : Nat := 40
/-- Limp ceiling, mm/s (05 section 5.1). -/
def limpCeiling : Nat := 1389
/-- Overspeed time limit, ms (05 section 5.1). -/
def overspeedMs : Nat := 500
/-- Speed below which a WORK profile may give way to a TRANSPORT profile, mm/s (04 R60). -/
def stowedSwitchSpeed : Nat := 833
/-- Step of the motor stroke ramp, per-mille per period (04 R63). -/
def motorStep : Nat := 5
/-- Tank levels, per-mille (08 section 8.4). -/
def tankLowLevel : Int := 150
/-- The dry level (08 section 8.4). -/
def tankDryLevel : Int := 30
/-- The refill level (08 section 8.4). -/
def tankRefillLevel : Int := 250
/-- Largest value of the volume accumulator, µl (08 R135): 2^48 − 1. -/
def volumeMax : Nat := 281474976710655
/-- Most record bytes an image may have (12 section 12.1). -/
def imageMax : Nat := 6336

end Sys2Proof.Config
end

