-- ==== Sys2Proof/Machine/Operands.lean ====
section
/-! DEFINITION. The arithmetic and operand forms of the manual (00_scope.md, Arithmetic; 01 R15): clamping, saturating,
truncating division, little-endian byte strings and bit fields in them. -/

namespace Sys2Proof.Machine

/-- "To clamp to [lo, hi]"; 00 Arithmetic. -/
def clampInt (lo hi x : Int) : Int := if x < lo then lo else if hi < x then hi else x

/-- Division rounded up; 00 Arithmetic. -/
def divUp (n d : Nat) : Nat := (n + d - 1) / d

/-- The scaling of a pick or a place: raw × multiplier / divisor + offset, the quotient truncated toward zero;
01 R16, 09 R141. -/
def scale (raw mul : Int) (div : Nat) (off : Int) : Int := Int.tdiv (raw * mul) (div : Int) + off

/-- The value of a byte string in little-endian order. -/
def leNat : List Byte → Nat
  | [] => 0
  | b :: bs => b.toNat + 256 * leNat bs

/-- The low `k` bytes of a number in little-endian order. -/
def leBytes : Nat → Nat → List Byte
  | 0, _ => []
  | k + 1, n => BitVec.ofNat 8 n :: leBytes k (n / 256)

/-- The two's-complement number of `w` bits that stands for an integer. -/
def twosComplement (w : Nat) (x : Int) : Nat := (x % (2 ^ w : Nat)).toNat

/-- A `w`-bit number read as two's complement: when bit w − 1 is set, the number minus 2^w; 01 R15. -/
def signedValue (w n : Nat) : Int := if 2 ^ (w - 1) ≤ n then (n : Int) - (2 ^ w : Nat) else n

/-- The low `k` bytes of an integer in two's complement, little-endian. -/
def leBytesInt (k : Nat) (x : Int) : List Byte := leBytes k (twosComplement (8 * k) x)

/-- The field of `w` bits from bit `pos` of the data upward; 01 R15. -/
def field (pos w n : Nat) : Nat := n / 2 ^ pos % 2 ^ w

/-- The data with that field replaced and every other bit as it was; 01 R17. -/
def putField (pos w n v : Nat) : Nat := n - field pos w n * 2 ^ pos + v % 2 ^ w * 2 ^ pos

/-- The lowest value of a field; 00 Arithmetic. -/
def fieldMin (signed : Bool) (w : Nat) : Int := if signed then -((2 ^ (w - 1) : Nat) : Int) else 0

/-- The highest value of a field; 00 Arithmetic. -/
def fieldMax (signed : Bool) (w : Nat) : Int :=
  if signed then ((2 ^ (w - 1) : Nat) : Int) - 1 else ((2 ^ w : Nat) : Int) - 1

/-- "To saturate to a field"; 00 Arithmetic. -/
def saturate (signed : Bool) (w : Nat) (x : Int) : Int := clampInt (fieldMin signed w) (fieldMax signed w) x

/-- Whether a field lies within data of a length: its last bit is before 8 × length; 01 R15. -/
def fieldFits (pos w len : Nat) : Bool := decide (pos + w ≤ 8 * len)

/-- One byte of a record, 0 beyond its end. -/
def u8 (bs : List Byte) (i : Nat) : Nat := (bs.getD i 0).toNat

/-- Two bytes of a record, little-endian. -/
def u16 (bs : List Byte) (i : Nat) : Nat := u8 bs i + 256 * u8 bs (i + 1)

/-- Four bytes of a record, little-endian. -/
def u32 (bs : List Byte) (i : Nat) : Nat := u16 bs i + 65536 * u16 bs (i + 2)

/-- Two bytes of a record as a signed number. -/
def s16 (bs : List Byte) (i : Nat) : Int := signedValue 16 (u16 bs i)

/-- Four bytes of a record as a signed number. -/
def s32 (bs : List Byte) (i : Nat) : Int := signedValue 32 (u32 bs i)

/-- A yes/no field: 0 for no, 1 for yes, nothing else; 11 section 11.7. -/
def yesNo : Nat → Option Bool
  | 0 => some false
  | 1 => some true
  | _ => none

/-- The code of a yes/no field. -/
def boolByte (b : Bool) : Byte := if b then 1 else 0

/-- A number as one record byte. -/
def byteOf (n : Nat) : Byte := BitVec.ofNat 8 n

/-- A number below `n`, or nothing. -/
def fin? (n i : Nat) : Option (Fin n) := if h : i < n then some ⟨i, h⟩ else none

/-- A number within its range, or nothing. -/
def within (lo hi n : Nat) : Option Nat := if lo ≤ n ∧ n ≤ hi then some n else none

/-- An integer within its range, or nothing. -/
def withinInt (lo hi x : Int) : Option Int := if lo ≤ x ∧ x ≤ hi then some x else none

/-- The place of the first entry that satisfies `p`. -/
def vfind {α : Type} {n : Nat} (v : Vector α n) (p : α → Bool) : Option (Fin n) :=
  (v.toList.findIdx? p).bind (fin? n)

/-- The numbers 0 to n − 1, in order. -/
def allFin : (n : Nat) → List (Fin n)
  | 0 => []
  | n + 1 => 0 :: (allFin n).map Fin.succ

/-- Remove the element at an index and return it with the rest. -/
def takeAt {α : Type} : Nat → List α → Option (α × List α)
  | _, [] => none
  | 0, x :: xs => some (x, xs)
  | i + 1, x :: xs => (takeAt i xs).map fun (y, ys) => (y, x :: ys)

/-- The elements in an order that the free value `tieOrder` chooses, from its argument `n` on; [2]. A list of at
most one element needs no choice. -/
def anyOrder {α : Type} (n : Nat) : List α → List α
  | [] => []
  | [x] => [x]
  | x :: y :: zs => go (zs.length + 2) n (x :: y :: zs)
where
  go : Nat → Nat → List α → List α
    | 0, _, l => l
    | k + 1, n, l =>
      match takeAt (Config.tieOrder n % l.length) l with
      | none => l
      | some (x, rest) => x :: go k (n + 1) rest

end Sys2Proof.Machine
end

