-- ==== Sys2Proof/Machine/Tables.lean ====
section
/-! DEFINITION. The working tables: the record of each item (01 to 09) and its factory default (12 R183). -/

namespace Sys2Proof.Machine

/-- One of each for the three arms. -/
structure PerArm (α : Type) where
  sl : α
  sr : α
  mb : α
deriving DecidableEq, Repr

/-- The entry of an arm. -/
def PerArm.get {α : Type} (p : PerArm α) : Arm → α
  | .sl => p.sl
  | .sr => p.sr
  | .mb => p.mb

/-- Replace the entry of an arm. -/
def PerArm.set {α : Type} (p : PerArm α) (a : Arm) (x : α) : PerArm α :=
  match a with
  | .sl => { p with sl := x }
  | .sr => { p with sr := x }
  | .mb => { p with mb := x }

/-- Apply a function to each arm's entry. -/
def PerArm.map {α β : Type} (f : α → β) (p : PerArm α) : PerArm β := ⟨f p.sl, f p.sr, f p.mb⟩

/-- The same entry for every arm. -/
def PerArm.all {α : Type} (x : α) : PerArm α := ⟨x, x, x⟩

/-- One of each for the two ports. -/
structure PerPort (α : Type) where
  c : α
  b : α
deriving DecidableEq, Repr

/-- The entry of a port. -/
def PerPort.get {α : Type} (p : PerPort α) : Port → α
  | .c => p.c
  | .b => p.b

/-- Replace the entry of a port. -/
def PerPort.set {α : Type} (p : PerPort α) (q : Port) (x : α) : PerPort α :=
  match q with
  | .c => { p with c := x }
  | .b => { p with b := x }

/-- The number of an arm: 0 for SL, 1 for SR, 2 for MB (09 R144). -/
def armNumber : Arm → Nat
  | .sl => 0
  | .sr => 1
  | .mb => 2

/-- The arms in the order SL, SR, MB. -/
def allArms : List Arm := [.sl, .sr, .mb]

/-- The number of a port: 0 for C, 1 for B (09 R144). -/
def portNumber : Port → Nat
  | .c => 0
  | .b => 1

/-- The port a frame crosses to (01 R13). -/
def otherPort : Port → Port
  | .c => .b
  | .b => .c

/-- Port selector of a match entry (01 section 1.4). -/
inductive PortSel where
  | c | b | any
deriving DecidableEq, Repr

/-- Format of a match entry (01 section 1.4). -/
inductive FmtSel where
  | std | ext | any
deriving DecidableEq, Repr

/-- Actions (01 section 1.4). -/
inductive Action where
  | pass | drop | take | takePass | rewrite
deriving DecidableEq, Repr

/-- Sender modes (01 section 1.4). -/
inductive SenderMode where
  | direct | perSender
deriving DecidableEq, Repr

/-- Role of a pick (01 section 1.6). -/
inductive PickRole where
  | value | token
deriving DecidableEq, Repr

/-- A pick (01 section 1.6); the bit position is byte position × 8 + start bit. -/
structure Pick where
  bitPos : Nat
  width : Nat
  signed : Bool
  mul : Int
  div : Nat
  off : Int
  role : PickRole
  slot : Fin 48
deriving DecidableEq, Repr

/-- Value source of a rewrite place (01 section 1.7). -/
inductive RewriteSource where
  | engineRequest
  | slot (n : Fin 48)
deriving DecidableEq, Repr

/-- Combine rules (01 section 1.7). -/
inductive Combine where
  | replace | max | min
deriving DecidableEq, Repr

/-- A rewrite place (01 section 1.7). -/
structure RewritePlace where
  bitPos : Nat
  width : Nat
  source : RewriteSource
  combine : Combine
deriving DecidableEq, Repr

/-- A match entry (01 section 1.4). -/
structure MatchEntry where
  valid : Bool
  sel : PortSel
  fmt : FmtSel
  id : Ident
  mask : Ident
  minLen : Nat
  action : Action
  mode : SenderMode
  picks : List Pick
  place : Option RewritePlace
deriving DecidableEq, Repr

/-- Factory default: invalid, every other field zero (01 R21). -/
def MatchEntry.factory : MatchEntry :=
  { valid := false, sel := .c, fmt := .std, id := 0, mask := 0, minLen := 0, action := .pass, mode := .direct,
    picks := [], place := none }

/-- Stale policies (02 section 2.1). -/
inductive StalePolicy where
  | hold | default
deriving DecidableEq, Repr

/-- Vote policies (02 section 2.1). -/
inductive Vote where
  | none | latest | lowest | highest | agree
deriving DecidableEq, Repr

/-- Configuration of a slot (02 section 2.1). -/
structure SlotCfg where
  min : Int
  max : Int
  dflt : Int
  timeout : Nat
  policy : StalePolicy
  severity : Fin 4
  paired : Bool
  vote : Vote
  tolerance : Nat
  minFresh : Nat
deriving DecidableEq, Repr

/-- Factory default of a slot (02 R27). -/
def SlotCfg.factory : SlotCfg :=
  { min := -2147483648, max := 2147483647, dflt := 0, timeout := 0, policy := .hold, severity := 0, paired := false,
    vote := .none, tolerance := 0, minFresh := 1 }

/-- The 18 roles (02 section 2.7). -/
inductive Role where
  | pedal | engineSpeed | park | cruiseSet | cruiseCancel | profileRequest
  | armRequest (a : Arm) | armPosition (a : Arm) | armDeflection (a : Arm)
  | tankLevel | spraySwitch | faultAck
deriving DecidableEq, Repr

/-- The place of a role in the ROLE_MAP item (11 section 11.7). -/
def Role.place : Role → Fin 18
  | .pedal => 0
  | .engineSpeed => 1
  | .park => 2
  | .cruiseSet => 3
  | .cruiseCancel => 4
  | .profileRequest => 5
  | .armRequest .sl => 6
  | .armRequest .sr => 7
  | .armRequest .mb => 8
  | .armPosition .sl => 9
  | .armPosition .sr => 10
  | .armPosition .mb => 11
  | .armDeflection .sl => 12
  | .armDeflection .sr => 13
  | .armDeflection .mb => 14
  | .tankLevel => 15
  | .spraySwitch => 16
  | .faultAck => 17

/-- What an unbound role reads (02 section 2.7). -/
def Role.dflt : Role → Int
  | .park => 1
  | _ => 0

/-- Profile kinds (04 section 4.2). -/
inductive ProfileKind where
  | transport | work
deriving DecidableEq, Repr

/-- The fields a profile holds for each arm (04 section 4.2). -/
structure ArmParams where
  curve : Fin 12
  pressure : Nat
  dose : Nat
deriving DecidableEq, Repr

/-- A work profile (04 section 4.2). -/
structure Profile where
  kind : ProfileKind
  speedCurve : Fin 12
  ceiling : Nat
  cap : Nat
  motor : Nat
  aUp : Nat
  aDn : Nat
  deadband : Nat
  cruiseAllowed : Bool
  liftReverse : Bool
  raiseAllowed : Bool
  requestMax : Nat
  arms : PerArm ArmParams
deriving DecidableEq, Repr

/-- Factory default of a profile (04 section 4.2). -/
def Profile.factory : Profile :=
  { kind := .transport, speedCurve := 0, ceiling := 0, cap := 0, motor := 1000, aUp := 20, aDn := 20, deadband := 40,
    cruiseAllowed := false, liftReverse := true, raiseAllowed := false, requestMax := 0,
    arms := .all { curve := 0, pressure := 0, dose := 0 } }

/-- A curve (04 section 4.1). -/
structure Curve where
  step : Nat
  ys : Vector Nat 9
deriving DecidableEq, Repr

/-- Factory default of a curve (04 R55). -/
def Curve.factory : Curve := { step := 1, ys := Vector.replicate 9 0 }

/-- Configuration of one arm (06 section 6.1). -/
structure ArmCfg where
  fitted : Bool
  stow : Nat
  work : Nat
  lower : Int
  lift : Int
  motionLimit : Nat
  deflOn : Nat
  deflOff : Nat
  floatLimit : Nat
  dm : Nat
deriving DecidableEq, Repr

/-- Factory default of an arm's configuration (06 section 6.1). -/
def ArmCfg.factory : ArmCfg :=
  { fitted := false, stow := 50, work := 900, lower := 600, lift := -700, motionLimit := 6000, deflOn := 300,
    deflOff := 150, floatLimit := 8000, dm := 2400 }

/-- The ARM_CONFIG item (06 section 6.1). -/
structure ArmConfig where
  arms : PerArm ArmCfg
  liftFlow : Nat
deriving DecidableEq, Repr

/-- Factory default of ARM_CONFIG. -/
def ArmConfig.factory : ArmConfig := { arms := .all ArmCfg.factory, liftFlow := 200 }

/-- Value sources of template places (09 section 9.2). -/
inductive Source where
  | slot (n : Fin 48)
  | pumpStroke | motorStroke | travelDir | cmdSpeed | measSpeed
  | armValve (a : Arm) | armPressure (a : Arm) | brushRpm (a : Arm) | armState (a : Arm)
  | sprayDuty | bankMask | volume | engineRequest | responseLevel | topFault | profile
deriving DecidableEq, Repr

/-- A place of a template (09 section 9.1). -/
structure Place where
  bitPos : Nat
  width : Nat
  signed : Bool
  source : Source
  mul : Int
  div : Nat
  off : Int
deriving DecidableEq, Repr

/-- A frame template (09 section 9.1). -/
structure Template where
  port : Port
  fmt : Fmt
  id : Ident
  len : Nat
  bytes : Vector Byte 8
  places : List Place
deriving DecidableEq, Repr

/-- Factory default of a template (09 R140). -/
def Template.factory : Template :=
  { port := .c, fmt := .std, id := 0, len := 0, bytes := Vector.replicate 8 0, places := [] }

/-- Trigger sources of a channel (09 section 9.3). -/
inductive Trigger where
  | governor | armPeriod | allocator | spray | armChange | faultChange | interval | chain | service
deriving DecidableEq, Repr

/-- Configuration of a send channel (09 section 9.3); `sequence` is mode SEQUENCE, else SINGLE. -/
structure ChannelCfg where
  source : Trigger
  param : Nat
  sequence : Bool
  continuous : Bool
  reload : Nat
  runStart : Nat
  runLen : Nat
  chain : Option (Fin 6)
  notify : Bool
  startEnabled : Bool
deriving DecidableEq, Repr

/-- Factory default of a channel (09 R146). -/
def ChannelCfg.factory : ChannelCfg :=
  { source := .service, param := 0, sequence := false, continuous := false, reload := 1, runStart := 0, runLen := 1,
    chain := none, notify := false, startEnabled := false }

/-- An output window (01 section 1.8). -/
structure Window where
  fmt : Fmt
  lo : Ident
  hi : Ident
deriving DecidableEq, Repr

/-- The two windows of a port. -/
structure WindowPair where
  w0 : Window
  w1 : Window
deriving DecidableEq, Repr

/-- Factory default of a window: empty (01 R21). -/
def Window.factory : Window := { fmt := .std, lo := 1, hi := 0 }

/-- Capture configuration of one channel (03 section 3.1). -/
structure CapCfg where
  fitted : Bool
  cp : Nat
deriving DecidableEq, Repr

/-- The DRIVE_CONFIG item (03 R40, 05 R66, 07 R110, 10 R164). -/
structure DriveConfig where
  capA : CapCfg
  capB : CapCfg
  gk : Nat
  kp : Nat
  ki : Nat
  imax : Nat
  startProfile : Fin 4
  dimp : Nat
  notifyThreshold : Fin 4
deriving DecidableEq, Repr

/-- Factory default of DRIVE_CONFIG. -/
def DriveConfig.factory : DriveConfig :=
  { capA := ⟨true, 1000⟩, capB := ⟨true, 1000⟩, gk := 4200, kp := 150, ki := 10, imax := 150, startProfile := 0,
    dimp := 280, notifyThreshold := 0 }

/-- The SPRAY_CONFIG item (08 section 8.2). -/
structure SprayConfig where
  qmax : Nat
  minDuty : Nat
  minSpeed : Nat
  linger : Nat
deriving DecidableEq, Repr

/-- Factory default of SPRAY_CONFIG. -/
def SprayConfig.factory : SprayConfig := { qmax := 400, minDuty := 120, minSpeed := 200, linger := 2000 }

/-- The PORT_CONFIG item (01 section 1.9); a default action is PASS (true) or DROP (false). -/
structure PortConfig where
  reqFmt : Fmt
  reqId : Ident
  repFmt : Fmt
  repId : Ident
  passC : Bool
  passB : Bool
deriving DecidableEq, Repr

/-- Factory default of PORT_CONFIG. -/
def PortConfig.factory : PortConfig :=
  { reqFmt := .std, reqId := 0x6E2, repFmt := .std, repId := 0x6E3, passC := true, passB := true }

/-- The working tables (00 Terms). -/
structure Tables where
  entries : Vector MatchEntry 96
  slots : Vector SlotCfg 48
  roles : Vector (Option (Fin 48)) 18
  profiles : Vector Profile 4
  curves : Vector Curve 12
  arms : ArmConfig
  templates : Vector Template 32
  channels : Vector ChannelCfg 6
  windows : PerPort WindowPair
  drive : DriveConfig
  spray : SprayConfig
  ports : PortConfig
deriving DecidableEq, Repr

/-- The factory defaults of all items (12 R183). -/
def Tables.factory : Tables :=
  { entries := Vector.replicate 96 MatchEntry.factory
    slots := Vector.replicate 48 SlotCfg.factory
    roles := Vector.replicate 18 none
    profiles := Vector.replicate 4 Profile.factory
    curves := Vector.replicate 12 Curve.factory
    arms := ArmConfig.factory
    templates := Vector.replicate 32 Template.factory
    channels := Vector.replicate 6 ChannelCfg.factory
    windows := ⟨⟨Window.factory, Window.factory⟩, ⟨Window.factory, Window.factory⟩⟩
    drive := DriveConfig.factory
    spray := SprayConfig.factory
    ports := PortConfig.factory }

/-- Capture configuration of a channel. -/
def DriveConfig.cap (d : DriveConfig) : CapCh → CapCfg
  | .a => d.capA
  | .b => d.capB

/-- Evaluation of a curve at an integer x (04 R54). -/
def Curve.eval (c : Curve) (x : Int) : Nat :=
  let x := x.toNat
  let i := x / c.step
  if h : i < 8 then
    if c.step = 0 then c.ys[8]
    else
      let y0 : Int := c.ys[i]
      let y1 : Int := c.ys[i + 1]
      (y0 + Int.tdiv ((y1 - y0) * ((x : Int) - i * c.step)) c.step).toNat
  else c.ys[8]

end Sys2Proof.Machine
end

