-- ==== Sys2Proof/Machine/Records.lean ====
section
/-! DEFINITION. The record layouts of 11 section 11.7: the committed bytes of each table item, and the reading of a
record with the field checks of the item's chapter (11 R173: a field outside its range, or a code not listed, gives
BAD_VALUE, here `none`). -/

namespace Sys2Proof.Machine

/-- The item kinds (11 section 11.7). -/
inductive Item where
  | matchEntry | slot | roleMap | profile | curve | armConfig | template | channel | windows | driveConfig
  | sprayConfig | portConfig | capture | fault | sender
deriving DecidableEq, Repr

/-- The code of an item kind. -/
def Item.code : Item → Nat
  | .matchEntry => 1
  | .slot => 2
  | .roleMap => 3
  | .profile => 4
  | .curve => 5
  | .armConfig => 6
  | .template => 7
  | .channel => 8
  | .windows => 9
  | .driveConfig => 10
  | .sprayConfig => 11
  | .portConfig => 12
  | .capture => 13
  | .fault => 14
  | .sender => 15

/-- The item kind of a code. -/
def Item.ofCode : Nat → Option Item
  | 1 => some .matchEntry
  | 2 => some .slot
  | 3 => some .roleMap
  | 4 => some .profile
  | 5 => some .curve
  | 6 => some .armConfig
  | 7 => some .template
  | 8 => some .channel
  | 9 => some .windows
  | 10 => some .driveConfig
  | 11 => some .sprayConfig
  | 12 => some .portConfig
  | 13 => some .capture
  | 14 => some .fault
  | 15 => some .sender
  | _ => none

/-- How many indices an item kind has. -/
def Item.count : Item → Nat
  | .matchEntry => 96
  | .slot => 48
  | .profile => 4
  | .curve => 12
  | .template => 32
  | .channel => 6
  | .fault => 16
  | .sender => 24
  | .roleMap | .armConfig | .windows | .driveConfig | .sprayConfig | .portConfig | .capture => 1

/-- The record length of an item kind. -/
def Item.recordLength : Item → Nat
  | .matchEntry => 64
  | .slot => 36
  | .roleMap => 18
  | .profile => 31
  | .curve => 20
  | .armConfig => 59
  | .template => 64
  | .channel => 21
  | .windows => 36
  | .driveConfig => 18
  | .sprayConfig => 8
  | .portConfig => 12
  | .capture => 51
  | .fault => 63
  | .sender => 22

/-- The committed length of an item kind; none for a read-only kind. -/
def Item.committedLength : Item → Option Nat
  | .slot => some 23
  | .channel => some 12
  | .matchEntry => some 64
  | .roleMap => some 18
  | .profile => some 31
  | .curve => some 20
  | .armConfig => some 59
  | .template => some 64
  | .windows => some 36
  | .driveConfig => some 18
  | .sprayConfig => some 8
  | .portConfig => some 12
  | .capture | .fault | .sender => none

/-- Bytes `i` to `i + k - 1` of a record. -/
def slice (bs : List Byte) (i k : Nat) : List Byte := (bs.drop i).take k

/-! ## Codes of enumerated fields -/

/-- Format code. -/
def fmtCode : Fmt → Nat
  | .std => 0
  | .ext => 1

/-- Format of a code. -/
def fmtOf : Nat → Option Fmt
  | 0 => some .std
  | 1 => some .ext
  | _ => none

/-- Port of a code. -/
def portOf : Nat → Option Port
  | 0 => some .c
  | 1 => some .b
  | _ => none

/-- Port selector code. -/
def PortSel.code : PortSel → Nat
  | .c => 0
  | .b => 1
  | .any => 2

/-- Port selector of a code. -/
def PortSel.ofCode : Nat → Option PortSel
  | 0 => some .c
  | 1 => some .b
  | 2 => some .any
  | _ => none

/-- Format selector code. -/
def FmtSel.code : FmtSel → Nat
  | .std => 0
  | .ext => 1
  | .any => 2

/-- Format selector of a code. -/
def FmtSel.ofCode : Nat → Option FmtSel
  | 0 => some .std
  | 1 => some .ext
  | 2 => some .any
  | _ => none

/-- Action code. -/
def Action.code : Action → Nat
  | .pass => 0
  | .drop => 1
  | .take => 2
  | .takePass => 3
  | .rewrite => 4

/-- Action of a code. -/
def Action.ofCode : Nat → Option Action
  | 0 => some .pass
  | 1 => some .drop
  | 2 => some .take
  | 3 => some .takePass
  | 4 => some .rewrite
  | _ => none

/-- Sender mode code. -/
def SenderMode.code : SenderMode → Nat
  | .direct => 0
  | .perSender => 1

/-- Sender mode of a code. -/
def SenderMode.ofCode : Nat → Option SenderMode
  | 0 => some .direct
  | 1 => some .perSender
  | _ => none

/-- Combine rule code. -/
def Combine.code : Combine → Nat
  | .replace => 0
  | .max => 1
  | .min => 2

/-- Combine rule of a code. -/
def Combine.ofCode : Nat → Option Combine
  | 0 => some .replace
  | 1 => some .max
  | 2 => some .min
  | _ => none

/-- Rewrite source code: 0 to 47 a slot, 99 ENGINE_REQUEST. -/
def RewriteSource.code : RewriteSource → Nat
  | .slot n => n.val
  | .engineRequest => 99

/-- Rewrite source of a code; a rewrite place accepts 0 to 47 and 99 only. -/
def RewriteSource.ofCode (n : Nat) : Option RewriteSource :=
  if n = 99 then some .engineRequest else (fin? 48 n).map .slot

/-- Stale policy code. -/
def StalePolicy.code : StalePolicy → Nat
  | .hold => 0
  | .default => 1

/-- Stale policy of a code. -/
def StalePolicy.ofCode : Nat → Option StalePolicy
  | 0 => some .hold
  | 1 => some .default
  | _ => none

/-- Vote policy code. -/
def Vote.code : Vote → Nat
  | .none => 0
  | .latest => 1
  | .lowest => 2
  | .highest => 3
  | .agree => 4

/-- Vote policy of a code. -/
def Vote.ofCode : Nat → Option Vote
  | 0 => some .none
  | 1 => some .latest
  | 2 => some .lowest
  | 3 => some .highest
  | 4 => some .agree
  | _ => Option.none

/-- Profile kind code. -/
def ProfileKind.code : ProfileKind → Nat
  | .transport => 0
  | .work => 1

/-- Profile kind of a code. -/
def ProfileKind.ofCode : Nat → Option ProfileKind
  | 0 => some .transport
  | 1 => some .work
  | _ => none

/-- Value source code (11 section 11.7). -/
def Source.code : Source → Nat
  | .slot n => n.val
  | .pumpStroke => 64
  | .motorStroke => 65
  | .travelDir => 66
  | .cmdSpeed => 67
  | .measSpeed => 68
  | .armValve a => 72 + armNumber a
  | .armPressure a => 76 + armNumber a
  | .brushRpm a => 80 + armNumber a
  | .armState a => 84 + armNumber a
  | .sprayDuty => 96
  | .bankMask => 97
  | .volume => 98
  | .engineRequest => 99
  | .responseLevel => 100
  | .topFault => 101
  | .profile => 102

/-- Value source of a code (11 section 11.7). -/
def Source.ofCode (n : Nat) : Option Source :=
  match n with
  | 64 => some .pumpStroke
  | 65 => some .motorStroke
  | 66 => some .travelDir
  | 67 => some .cmdSpeed
  | 68 => some .measSpeed
  | 72 => some (.armValve .sl)
  | 73 => some (.armValve .sr)
  | 74 => some (.armValve .mb)
  | 76 => some (.armPressure .sl)
  | 77 => some (.armPressure .sr)
  | 78 => some (.armPressure .mb)
  | 80 => some (.brushRpm .sl)
  | 81 => some (.brushRpm .sr)
  | 82 => some (.brushRpm .mb)
  | 84 => some (.armState .sl)
  | 85 => some (.armState .sr)
  | 86 => some (.armState .mb)
  | 96 => some .sprayDuty
  | 97 => some .bankMask
  | 98 => some .volume
  | 99 => some .engineRequest
  | 100 => some .responseLevel
  | 101 => some .topFault
  | 102 => some .profile
  | _ => (fin? 48 n).map .slot

/-- Trigger source code. -/
def Trigger.code : Trigger → Nat
  | .governor => 0
  | .armPeriod => 1
  | .allocator => 2
  | .spray => 3
  | .armChange => 4
  | .faultChange => 5
  | .interval => 6
  | .chain => 7
  | .service => 8

/-- Trigger source of a code. -/
def Trigger.ofCode : Nat → Option Trigger
  | 0 => some .governor
  | 1 => some .armPeriod
  | 2 => some .allocator
  | 3 => some .spray
  | 4 => some .armChange
  | 5 => some .faultChange
  | 6 => some .interval
  | 7 => some .chain
  | 8 => some .service
  | _ => none

/-- An identifier in range for its format: up to 7FFh for STD, 1FFFFFFFh otherwise (01 section 1.4). -/
def identOf (std : Bool) (n : Nat) : Option Ident :=
  if n ≤ (if std then 0x7FF else 0x1FFFFFFF) then some (BitVec.ofNat 29 n) else none

/-- The four bytes of an identifier. -/
def identBytes (i : Ident) : List Byte := leBytes 4 i.toNat

/-! ## MATCH -/

/-- A pick's 11 bytes. -/
def Pick.encode (p : Pick) : List Byte :=
  [byteOf p.bitPos, byteOf p.width,
   byteOf (p.slot.val + (if p.signed then 64 else 0) + (match p.role with | .value => 0 | .token => 128))]
  ++ leBytesInt 2 p.mul ++ leBytes 2 p.div ++ leBytesInt 4 p.off

/-- A pick read from its 11 bytes, with the checks of 01 R12. -/
def Pick.decode (b : List Byte) : Option Pick := do
  let pos ← within 0 63 (u8 b 0)
  let width ← within 1 32 (u8 b 1)
  let _ ← within 0 64 (pos + width)
  let slot ← fin? 48 (u8 b 2 % 64)
  let div ← within 1 32767 (u16 b 5)
  return { bitPos := pos, width := width, signed := decide (u8 b 2 / 64 % 2 = 1), mul := s16 b 3, div := div,
           off := s32 b 7, role := if u8 b 2 / 128 = 1 then .token else .value, slot := slot }

/-- The rewrite place's bytes 59 to 63. -/
def encodeRewrite : Option RewritePlace → List Byte
  | none => [0, 0, 0, 0, 0]
  | some p => [1, byteOf p.bitPos, byteOf p.width, byteOf p.source.code, byteOf p.combine.code]

/-- The rewrite place read from bytes 59 to 63; absent ones are not checked. -/
def decodeRewrite (b : List Byte) : Option (Option RewritePlace) := do
  let present ← yesNo (u8 b 0)
  if present then
    let pos ← within 0 63 (u8 b 1)
    let width ← within 1 32 (u8 b 2)
    let _ ← within 0 64 (pos + width)
    let source ← RewriteSource.ofCode (u8 b 3)
    let combine ← Combine.ofCode (u8 b 4)
    return some { bitPos := pos, width := width, source := source, combine := combine }
  else return none

/-- Read `n` records of `k` bytes each, one after another. -/
def decodeEach {α : Type} (dec : List Byte → Option α) (k : Nat) : Nat → List Byte → Option (List α)
  | 0, _ => some []
  | n + 1, b => do
    let x ← dec (b.take k)
    let xs ← decodeEach dec k n (b.drop k)
    return x :: xs

/-- Zero bytes. -/
def zeros (k : Nat) : List Byte := List.replicate k 0

/-- Fill a byte string up to a length with zeros. -/
def padTo (k : Nat) (b : List Byte) : List Byte := b ++ zeros (k - b.length)

/-- The 64 bytes of a match entry; picks beyond the number given read back as 0. -/
def MatchEntry.encode (e : MatchEntry) : List Byte :=
  [boolByte e.valid, byteOf e.sel.code, byteOf e.fmt.code] ++ identBytes e.id ++ identBytes e.mask
  ++ [byteOf e.minLen, byteOf e.action.code, byteOf e.mode.code, byteOf e.picks.length]
  ++ padTo 44 (e.picks.flatMap Pick.encode) ++ encodeRewrite e.place

/-- The further checks of 01 R12 on one entry by itself: PASS and DROP carry no picks and are DIRECT, and a rewrite
place is there exactly for REWRITE. -/
def MatchEntry.shapeOk (e : MatchEntry) : Bool :=
  (match e.action with
   | .pass | .drop => e.picks.isEmpty && e.mode == .direct
   | .take | .takePass | .rewrite => true)
  && (e.place.isSome == (e.action == .rewrite))

/-- A match entry read from its 64 bytes, with the field checks of 01 R12. -/
def MatchEntry.decode (b : List Byte) : Option MatchEntry := do
  let valid ← yesNo (u8 b 0)
  let sel ← PortSel.ofCode (u8 b 1)
  let fmt ← FmtSel.ofCode (u8 b 2)
  let id ← identOf (fmt == .std) (u32 b 3)
  let mask ← identOf (fmt == .std) (u32 b 7)
  let minLen ← within 0 8 (u8 b 11)
  let action ← Action.ofCode (u8 b 12)
  let mode ← SenderMode.ofCode (u8 b 13)
  let n ← within 0 4 (u8 b 14)
  let picks ← decodeEach Pick.decode 11 n (b.drop 15)
  let place ← decodeRewrite (b.drop 59)
  let e : MatchEntry := { valid := valid, sel := sel, fmt := fmt, id := id, mask := mask, minLen := minLen,
                          action := action, mode := mode, picks := picks, place := place }
  if e.shapeOk then return e else none

/-- The vote check of 02 R29 on an entry, against slot configurations. -/
def MatchEntry.voteOk (slots : Vector SlotCfg 48) (e : MatchEntry) : Bool :=
  match e.mode with
  | .direct => e.picks.all fun p => slots[p.slot].vote == .none
  | .perSender =>
    match e.picks.filter (fun p => p.role == .value) with
    | [v] => slots[v.slot].vote != .none && e.picks.all fun p => p.slot == v.slot
    | _ => false

/-! ## SLOT -/

/-- The 23 committed bytes of a slot. -/
def SlotCfg.encode (c : SlotCfg) : List Byte :=
  leBytesInt 4 c.min ++ leBytesInt 4 c.max ++ leBytesInt 4 c.dflt ++ leBytes 2 c.timeout
  ++ [byteOf c.policy.code, byteOf c.severity.val, boolByte c.paired, byteOf c.vote.code]
  ++ leBytes 4 c.tolerance ++ [byteOf c.minFresh]

/-- A slot configuration read from its 23 bytes, with the field checks of 02 R28. -/
def SlotCfg.decode (b : List Byte) : Option SlotCfg := do
  let mn := s32 b 0
  let mx ← withinInt mn 2147483647 (s32 b 4)
  let df ← withinInt mn mx (s32 b 8)
  let timeout ← within 0 60000 (u16 b 12)
  let policy ← StalePolicy.ofCode (u8 b 14)
  let severity ← fin? 4 (u8 b 15)
  let paired ← yesNo (u8 b 16)
  let vote ← Vote.ofCode (u8 b 17)
  let tolerance ← within 0 2147483647 (u32 b 18)
  let minFresh ← within 1 2 (u8 b 22)
  return { min := mn, max := mx, dflt := df, timeout := timeout, policy := policy, severity := severity,
           paired := paired, vote := vote, tolerance := tolerance, minFresh := minFresh }

/-! ## ROLE_MAP -/

/-- The byte of a binding: FFh for unbound. -/
def roleByte : Option (Fin 48) → Byte
  | none => 0xFF
  | some n => byteOf n.val

/-- A binding read from its byte (02 R37). -/
def roleOf (n : Nat) : Option (Option (Fin 48)) :=
  if n = 255 then some none else (fin? 48 n).map some

/-- The 18 bytes of the role map. -/
def encodeRoles (r : Vector (Option (Fin 48)) 18) : List Byte := r.toList.map roleByte

/-- The role map read from its 18 bytes. -/
def decodeRoles (b : List Byte) : Option (Vector (Option (Fin 48)) 18) := do
  let l ← decodeEach (fun x => roleOf (u8 x 0)) 1 18 b
  if h : l.length = 18 then return ⟨⟨l⟩, h⟩ else none

/-! ## PROFILE -/

/-- The five bytes of an arm group. -/
def ArmParams.encode (p : ArmParams) : List Byte :=
  [byteOf p.curve.val] ++ leBytes 2 p.pressure ++ leBytes 2 p.dose

/-- An arm group read from its five bytes (04 section 4.2). -/
def ArmParams.decode (b : List Byte) : Option ArmParams := do
  let curve ← fin? 12 (u8 b 0)
  let pressure ← within 0 1000 (u16 b 1)
  let dose ← within 0 500 (u16 b 3)
  return { curve := curve, pressure := pressure, dose := dose }

/-- The 31 bytes of a profile. -/
def Profile.encode (p : Profile) : List Byte :=
  [byteOf p.kind.code, byteOf p.speedCurve.val] ++ leBytes 2 p.ceiling ++ leBytes 2 p.cap ++ leBytes 2 p.motor
  ++ [byteOf p.aUp, byteOf p.aDn, byteOf p.deadband, boolByte p.cruiseAllowed, boolByte p.liftReverse,
      boolByte p.raiseAllowed]
  ++ leBytes 2 p.requestMax ++ p.arms.sl.encode ++ p.arms.sr.encode ++ p.arms.mb.encode

/-- A profile read from its 31 bytes, with the checks of 04 R56. -/
def Profile.decode (b : List Byte) : Option Profile := do
  let kind ← ProfileKind.ofCode (u8 b 0)
  let speedCurve ← fin? 12 (u8 b 1)
  let ceiling ← within 0 12000 (u16 b 2)
  let cap ← within 0 1000 (u16 b 4)
  let motor ← within 300 1000 (u16 b 6)
  let aUp ← within 1 200 (u8 b 8)
  let aDn ← within 1 200 (u8 b 9)
  let deadband ← within 0 200 (u8 b 10)
  let cruise ← yesNo (u8 b 11)
  let reverse ← yesNo (u8 b 12)
  let raise ← yesNo (u8 b 13)
  let requestMax ← within 0 5000 (u16 b 14)
  let sl ← ArmParams.decode (slice b 16 5)
  let sr ← ArmParams.decode (slice b 21 5)
  let mb ← ArmParams.decode (slice b 26 5)
  return { kind := kind, speedCurve := speedCurve, ceiling := ceiling, cap := cap, motor := motor, aUp := aUp,
           aDn := aDn, deadband := deadband, cruiseAllowed := cruise, liftReverse := reverse, raiseAllowed := raise,
           requestMax := requestMax, arms := ⟨sl, sr, mb⟩ }

/-! ## CURVE -/

/-- The 20 bytes of a curve. -/
def Curve.encode (c : Curve) : List Byte := leBytes 2 c.step ++ c.ys.toList.flatMap (leBytes 2)

/-- A curve read from its 20 bytes, with the checks of 04 R55. -/
def Curve.decode (b : List Byte) : Option Curve := do
  let step ← within 1 5000 (u16 b 0)
  let l ← decodeEach (fun x => within 0 20000 (u16 x 0)) 2 9 (b.drop 2)
  if h : l.length = 9 then return { step := step, ys := ⟨⟨l⟩, h⟩ } else none

/-! ## ARM_CONFIG -/

/-- The 19 bytes of one arm's configuration. -/
def ArmCfg.encode (c : ArmCfg) : List Byte :=
  [boolByte c.fitted] ++ leBytes 2 c.stow ++ leBytes 2 c.work ++ leBytesInt 2 c.lower ++ leBytesInt 2 c.lift
  ++ leBytes 2 c.motionLimit ++ leBytes 2 c.deflOn ++ leBytes 2 c.deflOff ++ leBytes 2 c.floatLimit ++ leBytes 2 c.dm

/-- One arm's configuration read from its 19 bytes, with the checks of 06 R88. The lower command is read as signed,
as the lift command is: its range 1 to 1,000 is the same either way. -/
def ArmCfg.decode (b : List Byte) : Option ArmCfg := do
  let fitted ← yesNo (u8 b 0)
  let stow ← within 0 1000 (u16 b 1)
  let work ← within (stow + 1) 1000 (u16 b 3)
  let lower ← withinInt 1 1000 (s16 b 5)
  let lift ← withinInt (-1000) (-1) (s16 b 7)
  let motionLimit ← within 100 60000 (u16 b 9)
  let deflOn ← within 0 1000 (u16 b 11)
  let deflOff ← within 0 1000 (u16 b 13)
  let _ ← within (deflOff + 1) 1000 deflOn
  let floatLimit ← within 100 60000 (u16 b 15)
  let dm ← within 1 20000 (u16 b 17)
  return { fitted := fitted, stow := stow, work := work, lower := lower, lift := lift, motionLimit := motionLimit,
           deflOn := deflOn, deflOff := deflOff, floatLimit := floatLimit, dm := dm }

/-- The 59 bytes of ARM_CONFIG. -/
def ArmConfig.encode (c : ArmConfig) : List Byte :=
  c.arms.sl.encode ++ c.arms.sr.encode ++ c.arms.mb.encode ++ leBytes 2 c.liftFlow

/-- ARM_CONFIG read from its 59 bytes, with the checks of 06 R88. -/
def ArmConfig.decode (b : List Byte) : Option ArmConfig := do
  let sl ← ArmCfg.decode (slice b 0 19)
  let sr ← ArmCfg.decode (slice b 19 19)
  let mb ← ArmCfg.decode (slice b 38 19)
  let flow ← within 0 5000 (u16 b 57)
  return { arms := ⟨sl, sr, mb⟩, liftFlow := flow }

/-! ## TEMPLATE -/

/-- The 12 bytes of a place. -/
def Place.encode (p : Place) : List Byte :=
  [byteOf p.bitPos, byteOf p.width, boolByte p.signed, byteOf p.source.code]
  ++ leBytesInt 2 p.mul ++ leBytes 2 p.div ++ leBytesInt 4 p.off

/-- A place read from its 12 bytes, with the checks of 09 R140 for a template of this length. -/
def Place.decode (len : Nat) (b : List Byte) : Option Place := do
  let pos ← within 0 63 (u8 b 0)
  let width ← within 1 32 (u8 b 1)
  let _ ← within 0 (8 * len) (pos + width)
  let signed ← yesNo (u8 b 2)
  let source ← Source.ofCode (u8 b 3)
  let div ← within 1 32767 (u16 b 6)
  return { bitPos := pos, width := width, signed := signed, source := source, mul := s16 b 4, div := div,
           off := s32 b 8 }

/-- The 64 bytes of a template; places beyond the number given read back as 0; [44]. -/
def Template.encode (t : Template) : List Byte :=
  [byteOf (portNumber t.port), byteOf (fmtCode t.fmt)] ++ identBytes t.id ++ [byteOf t.len] ++ t.bytes.toList
  ++ [byteOf t.places.length] ++ padTo 48 (t.places.flatMap Place.encode)

/-- A template read from its 64 bytes, with the checks of 09 R140. -/
def Template.decode (b : List Byte) : Option Template := do
  let port ← portOf (u8 b 0)
  let fmt ← fmtOf (u8 b 1)
  let id ← identOf (fmt == .std) (u32 b 2)
  let len ← within 0 8 (u8 b 6)
  let n ← within 0 4 (u8 b 15)
  let places ← decodeEach (Place.decode len) 12 n (b.drop 16)
  let bytes := slice b 7 8
  if h : bytes.length = 8 then
    return { port := port, fmt := fmt, id := id, len := len, bytes := ⟨⟨bytes⟩, h⟩, places := places }
  else none

/-! ## CHANNEL -/

/-- The 12 committed bytes of a channel. -/
def ChannelCfg.encode (c : ChannelCfg) : List Byte :=
  [byteOf c.source.code] ++ leBytes 2 c.param ++ [boolByte c.sequence, boolByte c.continuous] ++ leBytes 2 c.reload
  ++ [byteOf c.runStart, byteOf c.runLen, (match c.chain with | none => 0xFF | some n => byteOf n.val),
      boolByte c.notify, boolByte c.startEnabled]

/-- A channel configuration read from its 12 bytes, with the checks of 09 R145. -/
def ChannelCfg.decode (b : List Byte) : Option ChannelCfg := do
  let source ← Trigger.ofCode (u8 b 0)
  let param ← if source = .interval then within 10 10000 (u16 b 1) else within 0 0 (u16 b 1)
  let sequence ← yesNo (u8 b 3)
  let continuous ← yesNo (u8 b 4)
  let reload ← within 1 65535 (u16 b 5)
  let runStart ← within 0 31 (u8 b 7)
  let runLen ← within 1 8 (u8 b 8)
  let _ ← within 0 32 (runStart + runLen)
  let chain ← if u8 b 9 = 255 then some none else (fin? 6 (u8 b 9)).map some
  let notify ← yesNo (u8 b 10)
  let startEnabled ← yesNo (u8 b 11)
  return { source := source, param := param, sequence := sequence, continuous := continuous, reload := reload,
           runStart := runStart, runLen := runLen, chain := chain, notify := notify, startEnabled := startEnabled }

/-! ## WINDOWS -/

/-- The nine bytes of a window. -/
def Window.encode (w : Window) : List Byte := [byteOf (fmtCode w.fmt)] ++ identBytes w.lo ++ identBytes w.hi

/-- A window read from its nine bytes, with the checks of 01 R19. -/
def Window.decode (b : List Byte) : Option Window := do
  let fmt ← fmtOf (u8 b 0)
  let lo ← identOf (fmt == .std) (u32 b 1)
  let hi ← identOf (fmt == .std) (u32 b 5)
  return { fmt := fmt, lo := lo, hi := hi }

/-- The 36 bytes of WINDOWS. -/
def encodeWindows (w : PerPort WindowPair) : List Byte :=
  w.c.w0.encode ++ w.c.w1.encode ++ w.b.w0.encode ++ w.b.w1.encode

/-- WINDOWS read from its 36 bytes. -/
def decodeWindows (b : List Byte) : Option (PerPort WindowPair) := do
  let c0 ← Window.decode (slice b 0 9)
  let c1 ← Window.decode (slice b 9 9)
  let b0 ← Window.decode (slice b 18 9)
  let b1 ← Window.decode (slice b 27 9)
  return ⟨⟨c0, c1⟩, ⟨b0, b1⟩⟩

/-! ## DRIVE_CONFIG, SPRAY_CONFIG, PORT_CONFIG -/

/-- The 18 bytes of DRIVE_CONFIG. -/
def DriveConfig.encode (d : DriveConfig) : List Byte :=
  [boolByte d.capA.fitted] ++ leBytes 2 d.capA.cp ++ [boolByte d.capB.fitted] ++ leBytes 2 d.capB.cp
  ++ leBytes 2 d.gk ++ leBytes 2 d.kp ++ leBytes 2 d.ki ++ leBytes 2 d.imax ++ [byteOf d.startProfile.val]
  ++ leBytes 2 d.dimp ++ [byteOf d.notifyThreshold.val]

/-- DRIVE_CONFIG read from its 18 bytes, with the checks of 03 R40, 05 R66, 07 R110 and 10 R164. -/
def DriveConfig.decode (b : List Byte) : Option DriveConfig := do
  let fa ← yesNo (u8 b 0)
  let ca ← within 100 10000 (u16 b 1)
  let fb ← yesNo (u8 b 3)
  let cb ← within 100 10000 (u16 b 4)
  let gk ← within 500 20000 (u16 b 6)
  let kp ← within 0 2000 (u16 b 8)
  let ki ← within 0 1000 (u16 b 10)
  let imax ← within 0 1000 (u16 b 12)
  let start ← fin? 4 (u8 b 14)
  let dimp ← within 1 20000 (u16 b 15)
  let notify ← fin? 4 (u8 b 17)
  return { capA := ⟨fa, ca⟩, capB := ⟨fb, cb⟩, gk := gk, kp := kp, ki := ki, imax := imax, startProfile := start,
           dimp := dimp, notifyThreshold := notify }

/-- The 8 bytes of SPRAY_CONFIG. -/
def SprayConfig.encode (c : SprayConfig) : List Byte :=
  leBytes 2 c.qmax ++ leBytes 2 c.minDuty ++ leBytes 2 c.minSpeed ++ leBytes 2 c.linger

/-- SPRAY_CONFIG read from its 8 bytes, with the checks of 08 R126. -/
def SprayConfig.decode (b : List Byte) : Option SprayConfig := do
  let qmax ← within 1 5000 (u16 b 0)
  let minDuty ← within 0 1000 (u16 b 2)
  let minSpeed ← within 0 5000 (u16 b 4)
  let linger ← within 0 10000 (u16 b 6)
  return { qmax := qmax, minDuty := minDuty, minSpeed := minSpeed, linger := linger }

/-- The code of a default action: 0 PASS, 1 DROP. -/
def actionByte (pass : Bool) : Byte := if pass then 0 else 1

/-- The 12 bytes of PORT_CONFIG. -/
def PortConfig.encode (p : PortConfig) : List Byte :=
  identBytes p.reqId ++ [byteOf (fmtCode p.reqFmt)] ++ identBytes p.repId ++ [byteOf (fmtCode p.repFmt)]
  ++ [actionByte p.passC, actionByte p.passB]

/-- The checks of 01 R20 on the identifiers: in range for their formats, and request and reply different. -/
def PortConfig.identsOk (p : PortConfig) : Bool :=
  (identOf (p.reqFmt == .std) p.reqId.toNat).isSome && (identOf (p.repFmt == .std) p.repId.toNat).isSome
  && !(p.reqFmt == p.repFmt && p.reqId == p.repId)

/-- PORT_CONFIG read from its 12 bytes, with the checks of 01 R20. -/
def PortConfig.decode (b : List Byte) : Option PortConfig := do
  let reqFmt ← fmtOf (u8 b 4)
  let reqId ← identOf (reqFmt == .std) (u32 b 0)
  let repFmt ← fmtOf (u8 b 9)
  let repId ← identOf (repFmt == .std) (u32 b 5)
  let dropC ← yesNo (u8 b 10)
  let dropB ← yesNo (u8 b 11)
  let p : PortConfig := { reqFmt := reqFmt, reqId := reqId, repFmt := repFmt, repId := repId, passC := !dropC,
                          passB := !dropB }
  if p.identsOk then return p else none

end Sys2Proof.Machine
end

