-- ==== Sys2Proof/Machine/State.lean ====
section
/-! DEFINITION. State: every piece of state the manual gives the part, as plain data, and State.reset. The reasons a
step can stop. INVENTORY.md lists each field with its rule and its reset value. -/

namespace Sys2Proof.Machine

/-- Why the model stops with a fault. -/
inductive Fault where
  /-- Raised by FRAME_RECEIVED when its operand is no frame (01 section 1.1: more than 8 data bytes, or a standard
  identifier above 7FFh). No link layer reports such an event. Safe: the model stops where nothing can happen. -/
  | notAFrame
deriving DecidableEq, Repr

/-- Why the model has no meaning for a command. -/
inductive Refusal where
  /-- Raised by exec's arm of a command that has no meaning yet; no arm is left so. Safe. -/
  | notModelled (mnemonic : String)
deriving DecidableEq, Repr

/-- A timer: stopped, or running with the µs it has left. At 0 it has run out and its expiry is due. -/
abbrev Timer := Option Nat

/-- A timer started with a time in ms. -/
def msTimer (ms : Nat) : Timer := some (1000 * ms)

/-- Power state of the part (12 R183, R184). -/
inductive Power where
  | unpowered | running | sleep
deriving DecidableEq, Repr

/-- The three kinds of restart (11 R175). -/
inductive Cause where
  | cold | wake | service
deriving DecidableEq, Repr

/-! ## Nonvolatile image and table store (12) -/

/-- Header fields (12 section 12.1). -/
structure Header where
  reqFmt : Fmt
  reqId : Ident
  repFmt : Fmt
  repId : Ident
  startProfile : Fin 4
  length : Nat
  check : BitVec 32
deriving DecidableEq, Repr

/-- The header page: erased, what a failed or interrupted write left (with the image length it shows, when its fields
read in range), or written. -/
inductive HeaderPage where
  | blank
  | torn (length : Option Nat)
  | written (h : Header)
deriving DecidableEq, Repr

/-- The nonvolatile area: the header page and the bytes of the record pages. -/
structure Nvm where
  header : HeaderPage
  cells : List Host.Cell
deriving DecidableEq, Repr

/-- A STORE in flight: the image formed at its start, the page whose step is in progress (0 is the header page, which
is written last) and the time left of that step. -/
structure StoreRun where
  image : List Byte
  header : Header
  page : Nat
  timer : Timer
deriving DecidableEq, Repr

/-- A RECALL in flight: the image length, the page being read, the sum so far and the time left of that read. -/
structure RecallRun where
  length : Nat
  page : Nat
  sum : BitVec 32
  timer : Timer
deriving DecidableEq, Repr

/-- The operation in flight, at most one. -/
inductive StoreOp where
  | idle
  | storing (r : StoreRun)
  | recalling (r : RecallRun)
deriving DecidableEq, Repr

/-- The table store's run-time state. -/
structure StoreUnit where
  imageValid : Bool
  op : StoreOp
deriving DecidableEq, Repr

/-! ## Port units (01) -/

/-- Where a queued record comes from (01 section 1.2). -/
inductive Origin where
  | forward
  | channel (n : Fin 6)
  | service
deriving DecidableEq, Repr

/-- A record of a transmit queue. -/
structure TxRec where
  frame : Frame
  origin : Origin
  order : Nat
deriving DecidableEq, Repr

/-- A waiting holder of a queue (01 R3). -/
inductive Holder where
  | channel (n : Fin 6)
  | service
deriving DecidableEq, Repr

/-- A port unit: link state, transmit queue, the entry order of the offered record, waiting holders (longest waiting
first) and the next entry order. -/
structure PortUnit where
  on : Bool
  queue : List TxRec
  offered : Option Nat
  holders : List Holder
  nextOrder : Nat
deriving DecidableEq, Repr

/-- A port unit after a restart (01 R2). -/
def PortUnit.fresh : PortUnit := { on := true, queue := [], offered := none, holders := [], nextOrder := 1 }

/-! ## Signal store (02) -/

/-- Slot status. -/
inductive SlotStatus where
  | never | fresh | stale
deriving DecidableEq, Repr

/-- Run-time fields of a slot (02 section 2.1); the slot's value is computed from them. -/
structure SlotRun where
  status : SlotStatus
  last : Int
  clamped : Bool
  evenSeen : Bool
  oddSeen : Bool
  timer : Timer
deriving DecidableEq, Repr

/-- A slot as a restart sets it (02 R27). -/
def SlotRun.restarted (c : SlotCfg) : SlotRun :=
  { status := .never, last := c.dflt, clamped := false, evenSeen := false, oddSeen := false,
    timer := if c.timeout = 0 then none else msTimer c.timeout }

/-- A sender record (02 section 2.5). `written` numbers its most recent write, for the LATEST vote; `silentUs` is the
silent time in µs. -/
structure SenderRec where
  port : Port
  fmt : Fmt
  id : Ident
  entry : Fin 96
  slot : Fin 48
  last : Option Int
  written : Nat
  evenSeen : Bool
  oddSeen : Bool
  timer : Timer
  fresh : Bool
  silentUs : Nat
deriving DecidableEq, Repr

/-! ## Speed capture (03) -/

/-- Capture mode. -/
inductive CapMode where
  | period | count
deriving DecidableEq, Repr

/-- Status of a capture channel. -/
inductive CapStatus where
  | running | standstill | lost
deriving DecidableEq, Repr

/-- Run-time state of a capture channel (03 section 3.1). `forward` is the direction level. -/
structure CapRun where
  mode : CapMode
  status : CapStatus
  measuring : Bool
  lastEdge : Option Clock
  lastPeriod : Option Nat
  count : Nat
  forward : Bool
  speed : Int
  standstillT : Timer
  windowT : Timer
  lossT : Timer
  returnT : Timer
deriving DecidableEq, Repr

/-- A capture channel as a restart sets it (03 R41). -/
def CapRun.restarted : CapRun :=
  { mode := .period, status := .standstill, measuring := false, lastEdge := none, lastPeriod := none, count := 0,
    forward := true, speed := 0, standstillT := none, windowT := none, lossT := none, returnT := none }

/-- The two capture channels and their combination; `disagreeBegun` and `noneBegun` are the conditions told begun. -/
structure Capture where
  a : CapRun
  b : CapRun
  s : Int
  disagree : Bool
  disagreeT : Timer
  disagreeBegun : Bool
  noneBegun : Bool
deriving DecidableEq, Repr

/-- The run-time record of a capture channel. -/
def Capture.get (c : Capture) : CapCh → CapRun
  | .a => c.a
  | .b => c.b

/-- Replace the run-time record of a capture channel. -/
def Capture.set (c : Capture) (ch : CapCh) (r : CapRun) : Capture :=
  match ch with
  | .a => { c with a := r }
  | .b => { c with b := r }

/-- Capture as a restart sets it, before S is judged (03 R41). -/
def Capture.restarted : Capture :=
  { a := CapRun.restarted, b := CapRun.restarted, s := 0, disagree := false, disagreeT := none,
    disagreeBegun := false, noneBegun := false }

/-! ## Profile selector and governor (04, 05) -/

/-- The profile selector (04 section 4.3). -/
structure Selector where
  active : Fin 4
  pending : Option (Fin 4)
deriving DecidableEq, Repr

/-- Governor states. -/
inductive GovState where
  | neutral | forward | reverse | stopping | held
deriving DecidableEq, Repr

/-- Output mark (05 section 5.1). -/
inductive Mark where
  | high | low | none
deriving DecidableEq, Repr

/-- The governor record (05 section 5.1), with the motor stroke M, the period timer and the conditions it holds toward
the supervisor. `cruise` is the cruise speed while cruise is engaged. -/
structure Gov where
  state : GovState
  dir : Int
  v : Nat
  p : Int
  i : Int
  mark : Mark
  cruise : Option Nat
  rememberedSet : Option Int
  lock : Bool
  overspeedMs : Nat
  motor : Nat
  timer : Timer
  engineLow : Bool
  overspeed : Bool
deriving DecidableEq, Repr

/-- The governor as a restart sets it, with the motor stroke of the start profile (05 R65, 04 R64). -/
def Gov.restarted (motor : Nat) : Gov :=
  { state := .held, dir := 0, v := 0, p := 0, i := 0, mark := .none, cruise := none, rememberedSet := none,
    lock := false, overspeedMs := 0, motor := motor, timer := msTimer Config.governorPeriodMs, engineLow := false,
    overspeed := false }

/-! ## Arms (06) -/

/-- Arm states. -/
inductive ArmState where
  | init | stowed | waitDown | lowering | working | float | waitUp | lifting | frozen | faulted
deriving DecidableEq, Repr

/-- Wait origin. -/
inductive WaitOrigin where
  | stowed | working | midway
deriving DecidableEq, Repr

/-- Frozen motion. -/
inductive Motion where
  | up | down | none
deriving DecidableEq, Repr

/-- An arm's record (06 section 6.2). `desiredDown` is the desired position, `obstructed` the obstruction hold (06 R102),
`starved` says that the arm has waited its time in the queue (R97), and `read` is the configuration the arm read at its
last period (R88). -/
structure ArmRec where
  state : ArmState
  desiredDown : Bool
  origin : WaitOrigin
  frozenMotion : Motion
  frozenRank : Nat
  obstructed : Bool
  motionT : Timer
  floatT : Timer
  waitT : Timer
  valve : Int
  pressure : Nat
  rpm : Nat
  scaled : Nat
  starved : Bool
  read : ArmCfg
deriving DecidableEq, Repr

/-- An arm of a configuration as a restart sets it (06 R89). -/
def ArmRec.restarted (c : ArmCfg) : ArmRec :=
  { state := if c.fitted then .init else .stowed, desiredDown := false, origin := .midway, frozenMotion := .none,
    frozenRank := 1, obstructed := false, motionT := none, floatT := none, waitT := none, valve := 0, pressure := 0,
    rpm := 0, scaled := 0, starved := false, read := c }

/-- The lift circuit: its holder, its queue and the arm period timer. -/
structure Lift where
  holder : Option Arm
  queue : List Arm
  timer : Timer
deriving DecidableEq, Repr

/-! ## Allocator, doser (07, 08) -/

/-- The allocator record (07 section 7.1). -/
structure Alloc where
  fav : Nat
  request : Nat
  timer : Timer
deriving DecidableEq, Repr

/-- The allocator as a restart sets it (07 R109). -/
def Alloc.restarted : Alloc := { fav := 0, request := 0, timer := msTimer Config.allocatorPeriodMs }

/-- A spray bank. -/
structure Bank where
  isOpen : Bool
  flow : Nat
deriving DecidableEq, Repr

/-- The doser record (08 section 8.1); `above` says that the period before read |S| at or above the minimum. -/
structure Spray where
  banks : PerArm Bank
  q : Nat
  duty : Nat
  volume : Nat
  lowArmed : Bool
  dry : Bool
  firstPending : Bool
  linger : Bool
  belowMs : Nat
  above : Bool
  tankLow : Bool
  sprayDry : Bool
  timer : Timer
deriving DecidableEq, Repr

/-- The doser as a restart sets it, with its volume accumulator (08 R125). -/
def Spray.restarted (volume : Nat) : Spray :=
  { banks := .all ⟨false, 0⟩, q := 0, duty := 0, volume := volume, lowArmed := true, dry := true,
    firstPending := true, linger := false, belowMs := 0, above := false, tankLow := false, sprayDry := false,
    timer := msTimer Config.sprayPeriodMs }

/-! ## Send channels (09) -/

/-- Channel states. -/
inductive ChanState where
  | idle | sending | stalled
deriving DecidableEq, Repr

/-- Run-time state of a send channel (09 section 9.3); `awaited` is the template a STALLED channel awaits (R151). -/
structure ChanRun where
  enable : Bool
  pending : Bool
  state : ChanState
  stop : Bool
  remaining : Nat
  position : Nat
  out : Nat
  done : Bool
  timer : Timer
  awaited : Option Nat
deriving DecidableEq, Repr

/-- A channel as a restart sets it (09 R146). -/
def ChanRun.restarted (c : ChannelCfg) : ChanRun :=
  { enable := c.startEnabled, pending := false, state := .idle, stop := false, remaining := c.reload,
    position := c.runStart, out := 0, done := false,
    timer := if c.source = .interval then msTimer c.param else none, awaited := none }

/-! ## Fault supervisor (10) -/

/-- A fault record (10 section 10.1); `ack` is clearing ACK, else SELF; `latched` is state LATCHED, else ACTIVE;
`merged` is the merged set, in order of joining, of the aggregate only. -/
structure FaultRec where
  kind : Kind
  subject : Nat
  severity : Fin 4
  ack : Bool
  latched : Bool
  count : Nat
  firstSeen : Nat
  order : Nat
  announced : Bool
  merged : List (Kind × Nat)
deriving DecidableEq, Repr

/-- A kept condition not yet observed again after a restart, and the time it has left (10 R166). -/
structure Unconfirmed where
  kind : Kind
  subject : Nat
  timer : Timer
deriving DecidableEq, Repr

/-- The fault supervisor: general places, aggregate (place 15), next entry order, published level, cut-off latch,
release timer and the kept conditions to be observed again. -/
structure Faults where
  places : Vector (Option FaultRec) 15
  aggregate : Option FaultRec
  nextOrder : Nat
  level : Fin 4
  latch : Bool
  releaseT : Timer
  unconfirmed : List Unconfirmed
deriving DecidableEq, Repr

/-- The supervisor with an empty list (10 R166, cold start); entry orders begin at 1; [3]. -/
def Faults.empty : Faults :=
  { places := Vector.replicate 15 none, aggregate := none, nextOrder := 1, level := 0, latch := false,
    releaseT := none, unconfirmed := [] }

/-! ## Service unit (11) -/

/-- The read buffer's snapshot (11 R171). -/
structure Snapshot where
  item : Item
  index : Nat
  bytes : List Byte
deriving DecidableEq, Repr

/-- A reply in the reply list: its 8 data bytes, whether it is the OK of an accepted RESTART (11 R177), and the reply
format and identifier it was offered under (R168), once it has been offered to a full queue. -/
structure Reply where
  data : List Byte
  isRestart : Bool
  offered : Option (Fmt × Ident)
deriving DecidableEq, Repr

/-- The restart mark (11 R177), with where the RESTART reply is: in the reply list, in the C-port queue under an entry
order, or gone. -/
inductive RestartMark where
  | clear
  | listed
  | queued (order : Nat)
  | left
deriving DecidableEq, Repr

/-- The service unit (11). `deferred` holds the code and tag of a STORE or RECALL in flight. -/
structure Service where
  session : Bool
  inactivityT : Timer
  stage : Vector Byte 64
  readBuf : Option Snapshot
  replies : List Reply
  deferred : Option (Byte × Byte)
  restart : RestartMark
deriving DecidableEq, Repr

/-- The service unit as a restart sets it (11 R178). -/
def Service.restarted : Service :=
  { session := false, inactivityT := none, stage := Vector.replicate 64 0, readBuf := none, replies := [],
    deferred := none, restart := .clear }

/-- Ignition shutdown: the shutdown hold and its timer (12 R184). -/
structure Shutdown where
  hold : Bool
  timer : Timer
deriving DecidableEq, Repr

/-- The model's own marks of the event in progress: which triggers it gives the send channels and which it has given
(09 R147). Clear between events. -/
structure EventMarks where
  period : Option Trigger
  armChange : Bool
  faultChange : Bool
  armGiven : Bool
  faultGiven : Bool
deriving DecidableEq, Repr

/-- No marks. -/
def EventMarks.none : EventMarks :=
  { period := .none, armChange := false, faultChange := false, armGiven := false, faultGiven := false }

/-- The state of the part. `choices`, `ev`, `written` and `pending` are the model's own [29]. -/
structure State where
  power : Power
  cutoffLine : Bool
  ignLine : Bool
  timeUs : Nat
  clock : Clock
  cause : Cause
  shutdown : Shutdown
  tables : Tables
  nvm : Nvm
  store : StoreUnit
  ports : PerPort PortUnit
  slots : Vector SlotRun 48
  senders : Vector (Option SenderRec) 24
  written : Nat
  ackReading : Int
  capture : Capture
  selector : Selector
  gov : Gov
  arms : PerArm ArmRec
  lift : Lift
  alloc : Alloc
  spray : Spray
  channels : Vector ChanRun 6
  faults : Faults
  service : Service
  choices : Nat
  ev : EventMarks
  pending : List Instr
deriving DecidableEq, Repr

/-- The STORE_INVALID record that a cold start without a valid image leaves (12 R183, 10 R157). -/
def storeInvalidAtReset : FaultRec :=
  { kind := .storeInvalid, subject := 0, severity := 3, ack := true, latched := false, count := 1, firstSeen := 0,
    order := 1, announced := false, merged := [] }

/-- The part right after reset: a cold start (12 R183) on a blank nonvolatile area with the IGN line active and the
CUTOFF line inactive, DESIGN CHOICE [3]. It runs on the factory defaults, at level 3. -/
def State.reset : State :=
  { power := .running
    cutoffLine := false
    ignLine := true
    timeUs := 0
    clock := 0
    cause := .cold
    shutdown := { hold := false, timer := none }
    tables := Tables.factory
    nvm := { header := .blank, cells := [] }
    store := { imageValid := false, op := .idle }
    ports := { c := PortUnit.fresh, b := PortUnit.fresh }
    slots := Vector.replicate 48 (SlotRun.restarted SlotCfg.factory)
    senders := Vector.replicate 24 none
    written := 0
    ackReading := 0
    capture := Capture.restarted
    selector := { active := 0, pending := none }
    gov := Gov.restarted 1000
    arms := .all (ArmRec.restarted ArmCfg.factory)
    lift := { holder := none, queue := [], timer := msTimer Config.armPeriodMs }
    alloc := Alloc.restarted
    spray := Spray.restarted 0
    channels := Vector.replicate 6 (ChanRun.restarted ChannelCfg.factory)
    faults := { Faults.empty with places := (Vector.replicate 15 none).set 0 (some storeInvalidAtReset),
                                  nextOrder := 2, level := 3 }
    service := Service.restarted
    choices := 0
    ev := .none
    pending := [] }

end Sys2Proof.Machine
end

