-- ==== Sys2Proof/Machine/Ops.lean ====
section
/-! DEFINITION. The shared operations over State: the nonvolatile memory, the passing of time, the reading of slots and
roles, the standstill test, and the transmit queues. -/

namespace Sys2Proof.Machine

/-! ## The record pages of the nonvolatile area (12 section 12.1)

Address 64 × page + offset. An address that is not listed reads 00h, DESIGN CHOICE [4]. -/

/-- The canonical form from an address on: addresses strictly rising and no byte 00h listed. -/
def Memory.wfFrom : Nat → List Host.Cell → Bool
  | _, [] => true
  | lo, (a, v) :: m => decide (lo ≤ a) && v != 0 && Memory.wfFrom (a + 1) m

/-- The canonical form. -/
def Memory.wf (m : List Host.Cell) : Bool := Memory.wfFrom 0 m

/-- Read one byte. -/
def Memory.read : List Host.Cell → Nat → Byte
  | [], _ => 0
  | (k, v) :: m, a => if a = k then v else Memory.read m a

/-- Write one byte, keeping the canonical form. -/
def Memory.write : List Host.Cell → Nat → Byte → List Host.Cell
  | [], a, v => if v = 0 then [] else [(a, v)]
  | (k, w) :: m, a, v =>
    if a < k then if v = 0 then (k, w) :: m else (a, v) :: (k, w) :: m
    else if a = k then if v = 0 then m else (a, v) :: m
    else (k, w) :: Memory.write m a v

/-- Write bytes one after another. -/
def Memory.writeAll : List Host.Cell → Nat → List Byte → List Host.Cell
  | m, _, [] => m
  | m, a, v :: vs => Memory.writeAll (Memory.write m a v) (a + 1) vs

/-- Read `n` bytes one after another. -/
def Memory.readAll (m : List Host.Cell) : Nat → Nat → List Byte
  | _, 0 => []
  | a, n + 1 => Memory.read m a :: Memory.readAll m (a + 1) n

/-! ## Time -/

/-- A timer after `n` µs: it does not run below 0, where its expiry is due. -/
def Timer.pass (n : Nat) (t : Timer) : Timer := t.map (· - n)

/-- The silent time at which a sender is removed, µs (02 R32): 10 × the slot's timeout. -/
def silentLimitUs (timeoutMs : Nat) : Nat := 10 * timeoutMs * 1000

/-- A sender record after `n` µs. Silent time is counted while the record is SILENT and the timeout is not 0. -/
def SenderRec.pass (n timeoutMs : Nat) (r : SenderRec) : SenderRec :=
  { r with timer := r.timer.pass n
           silentUs := if r.fresh ∨ timeoutMs = 0 then r.silentUs
                       else min (r.silentUs + n) (silentLimitUs timeoutMs) }

/-- A capture channel after `n` µs. -/
def CapRun.pass (n : Nat) (r : CapRun) : CapRun :=
  { r with standstillT := r.standstillT.pass n, windowT := r.windowT.pass n, lossT := r.lossT.pass n,
           returnT := r.returnT.pass n }

/-- An arm's timers after `n` µs. -/
def ArmRec.pass (n : Nat) (r : ArmRec) : ArmRec :=
  { r with motionT := r.motionT.pass n, floatT := r.floatT.pass n, waitT := r.waitT.pass n }

/-- The operation in flight after `n` µs. -/
def StoreOp.pass (n : Nat) : StoreOp → StoreOp
  | .idle => .idle
  | .storing r => .storing { r with timer := r.timer.pass n }
  | .recalling r => .recalling { r with timer := r.timer.pass n }

/-- `n` µs pass: every running timer runs down, the clock and the silent times run on, nothing else changes. -/
def passTime (n : Nat) (s : State) : State :=
  { s with
    timeUs := s.timeUs + n
    clock := s.clock + BitVec.ofNat 32 n
    shutdown.timer := s.shutdown.timer.pass n
    store.op := s.store.op.pass n
    slots := s.slots.map fun r => { r with timer := r.timer.pass n }
    senders := s.senders.map (Option.map fun r => r.pass n s.tables.slots[r.slot].timeout)
    capture := { s.capture with a := s.capture.a.pass n, b := s.capture.b.pass n,
                                disagreeT := s.capture.disagreeT.pass n }
    gov.timer := s.gov.timer.pass n
    arms := s.arms.map (ArmRec.pass n)
    lift.timer := s.lift.timer.pass n
    alloc.timer := s.alloc.timer.pass n
    spray.timer := s.spray.timer.pass n
    channels := s.channels.map fun c => { c with timer := c.timer.pass n }
    faults := { s.faults with releaseT := s.faults.releaseT.pass n,
                              unconfirmed := s.faults.unconfirmed.map fun u => { u with timer := u.timer.pass n } }
    service.inactivityT := s.service.inactivityT.pass n }

/-- Let time run on to the moment a timer with `n` µs left runs out; [1]. -/
def advance : Nat → State → State
  | 0, s => s
  | n + 1, s => passTime (n + 1) s

/-- Every period and timer stops, at the entry into SLEEP (12 R184). -/
def stopTimers (s : State) : State :=
  { s with
    shutdown.timer := none
    slots := s.slots.map fun r => { r with timer := none }
    senders := s.senders.map (Option.map fun r => { r with timer := none })
    capture := { s.capture with
      a := { s.capture.a with standstillT := none, windowT := none, lossT := none, returnT := none }
      b := { s.capture.b with standstillT := none, windowT := none, lossT := none, returnT := none }
      disagreeT := none }
    gov.timer := none
    arms := s.arms.map fun r => { r with motionT := none, floatT := none, waitT := none }
    lift.timer := none
    alloc.timer := none
    spray.timer := none
    channels := s.channels.map fun c => { c with timer := none }
    faults := { s.faults with releaseT := none, unconfirmed := s.faults.unconfirmed.map fun u => { u with timer := none } }
    service.inactivityT := none }

/-- Whole ms of a time in µs, truncated (00 Arithmetic); [21]. -/
def wholeMs (us : Nat) : Nat := us / 1000

/-! ## Reading slots and roles (02 R22, R37) -/

/-- What a consumer reads: the value, and whether it is fresh. -/
structure Reading where
  value : Int
  fresh : Bool
deriving DecidableEq, Repr

/-- The value a slot reads (02 R22): one that is not FRESH reads its default under DEFAULT, and every other case reads
the last written value. -/
def slotValue (c : SlotCfg) (r : SlotRun) : Int :=
  match r.status, c.policy with
  | .stale, .default | .never, .default => c.dflt
  | .stale, .hold | .never, .hold | .fresh, _ => r.last

/-- The value slot `n` reads. -/
def State.slotReads (s : State) (n : Fin 48) : Int := slotValue s.tables.slots[n] s.slots[n]

/-- The reading of a role (02 R37). -/
def State.role (s : State) (r : Role) : Reading :=
  match s.tables.roles[r.place] with
  | none => { value := r.dflt, fresh := false }
  | some n => { value := s.slotReads n, fresh := s.slots[n].status == .fresh }

/-- PARK is engaged unless it reads fresh and 0 (05 R67). -/
def State.parkEngaged (s : State) : Bool :=
  let r := s.role .park
  !(r.fresh && r.value == 0)

/-- The magnitude of S. -/
def State.absSpeed (s : State) : Nat := s.capture.s.natAbs

/-- The machine is at standstill (03 R52). -/
def State.standstill (s : State) : Bool := decide (s.absSpeed ≤ Config.standstillSpeed)

/-- The active profile. -/
def State.profile (s : State) : Profile := s.tables.profiles[s.selector.active]

/-! ## Transmit queues (01 section 1.2) -/

/-- A record's key (01 R4). -/
def TxRec.key (r : TxRec) : Nat :=
  match r.frame.fmt with
  | .std => r.frame.id.toNat
  | .ext => r.frame.id.toNat / 262144

/-- Whether a record has priority over another (01 R4). -/
def TxRec.before (a b : TxRec) : Bool :=
  if a.key ≠ b.key then decide (a.key < b.key)
  else
    match a.frame.fmt, b.frame.fmt with
    | .std, .ext => true
    | .ext, .std => false
    | .std, .std => decide (a.order < b.order)
    | .ext, .ext =>
      if a.frame.id ≠ b.frame.id then decide (a.frame.id.toNat < b.frame.id.toNat) else decide (a.order < b.order)

/-- The record of highest priority. -/
def highest : List TxRec → Option TxRec
  | [] => none
  | r :: rs =>
    match highest rs with
    | none => some r
    | some q => if q.before r then some q else some r

/-- Whether the queue holds 12 records. -/
def PortUnit.full (p : PortUnit) : Bool := decide (Config.queuePlaces ≤ p.queue.length)

/-- A link that holds no offered record is given the record of highest priority (01 R5). -/
def PortUnit.offerLink (p : PortUnit) : PortUnit :=
  match p.offered with
  | some _ => p
  | none => { p with offered := (highest p.queue).map (·.order) }

/-- A record enters the queue with the next entry order (01 R3, R5). -/
def PortUnit.enter (p : PortUnit) (f : Frame) (o : Origin) : PortUnit :=
  PortUnit.offerLink
    { p with queue := p.queue ++ [{ frame := f, origin := o, order := p.nextOrder }], nextOrder := p.nextOrder + 1 }

/-- The offered record. -/
def PortUnit.offeredRecord (p : PortUnit) : Option TxRec :=
  p.offered.bind fun o => p.queue.find? (·.order == o)

/-- The queue without the record of an entry order, the link left holding no record. -/
def PortUnit.removeOffered (p : PortUnit) (order : Nat) : PortUnit :=
  { p with queue := p.queue.filter (·.order != order), offered := none }

/-- Change one port unit. -/
def State.onPort (s : State) (q : Port) (f : PortUnit → PortUnit) : State :=
  { s with ports := s.ports.set q (f (s.ports.get q)) }

/-! ## Free choices -/

/-- Put a list into an order the free value chooses; [2]. -/
def State.anyOrder {α : Type} (s : State) (l : List α) : List α × State :=
  (Machine.anyOrder s.choices l, { s with choices := s.choices + l.length })

end Sys2Proof.Machine
end

