-- ==== Sys2Proof/Machine/Flags.lean ====
section
/-! DEFINITION. The status flags of the part: the fault list and what a report does to it (10 sections 10.1, 10.2), the
response level formed from it (R161), and the record offered to TOP_FAULT (R164). -/

namespace Sys2Proof

/-- The code of a kind (10 section 10.1). -/
def Kind.code : Kind → Nat
  | .signalStale => 1
  | .signalDisagree => 2
  | .senderTableFull => 3
  | .speedDisagree => 4
  | .speedChannelLost => 5
  | .speedNone => 6
  | .engineLow => 7
  | .overspeed => 8
  | .armStuck => 9
  | .armObstructed => 10
  | .liftStarved => 11
  | .tankLow => 12
  | .sprayDry => 13
  | .sendWindow => 14
  | .portLost => 15
  | .txFull => 16
  | .cutoff => 17
  | .storeInvalid => 18
  | .faultListFull => 19


/-- Whether a kind clears by ACK, else SELF (10 section 10.1). -/
def Kind.ack : Kind → Bool
  | .speedNone | .overspeed | .armStuck | .sendWindow | .storeInvalid | .faultListFull => true
  | .signalStale | .signalDisagree | .senderTableFull | .speedDisagree | .speedChannelLost | .engineLow
  | .armObstructed | .liftStarved | .tankLow | .sprayDry | .portLost | .txFull | .cutoff => false

end Sys2Proof

namespace Sys2Proof.Machine

/-- The records of the list, by place, the aggregate last. -/
def Faults.records (f : Faults) : List FaultRec := f.places.toList.filterMap id ++ f.aggregate.toList

/-- The response level the list and the latch give (10 R161). -/
def Faults.formed (f : Faults) : Fin 4 :=
  if f.latch then 3 else f.records.foldl (fun l r => max l r.severity) 0

/-- Whether a record is of a kind and subject. -/
def FaultRec.is (k : Kind) (n : Nat) (r : FaultRec) : Bool := r.kind == k && r.subject == n

/-- The general place that holds the record of a kind and subject. -/
def Faults.find (f : Faults) (k : Kind) (n : Nat) : Option (Fin 15) :=
  vfind f.places fun o => o.any (FaultRec.is k n)

/-- Whether the aggregate's merged set holds a kind and subject. -/
def Faults.mergedHas (f : Faults) (k : Kind) (n : Nat) : Bool :=
  f.aggregate.any fun r => r.merged.contains (k, n)

/-- Whether the list holds an ACTIVE record of a kind and subject, or has it merged. -/
def Faults.holds (f : Faults) (k : Kind) (n : Nat) : Bool :=
  (f.records.any fun r => r.is k n && !r.latched) || f.mergedHas k n

/-- Whether a kept condition waits to be observed again (10 R166). -/
def Faults.waits (f : Faults) (k : Kind) (n : Nat) : Bool :=
  f.unconfirmed.any fun u => u.kind == k && u.subject == n

/-- A kept condition no longer waits. -/
def Faults.settled (f : Faults) (k : Kind) (n : Nat) : Faults :=
  { f with unconfirmed := f.unconfirmed.filter fun u => !(u.kind == k && u.subject == n) }

/-- A record takes a report (10 R156): ACTIVE, counted up to 255 unless the report only confirms a kept condition
(R166), its severity raised to a higher one and the announced flag then cleared. -/
def FaultRec.takeReport (r : FaultRec) (counted : Bool) (sev : Fin 4) : FaultRec :=
  { r with latched := false
           count := if counted then min (r.count + 1) 255 else r.count
           severity := max r.severity sev
           announced := if r.severity < sev then false else r.announced }

/-- Whether a report returns an announced record to unannounced (10 R156, R157). -/
def FaultRec.unannouncedBy (r : FaultRec) (sev : Fin 4) : Bool := r.announced && decide (r.severity < sev)

/-- Mark the FAULT_CHANGE trigger of the event (09 R147). -/
def markFaultChange (s : State) : State := { s with ev.faultChange := true }

/-- Mark it when a condition holds. -/
def markFaultChangeIf (b : Bool) (s : State) : State := if b then markFaultChange s else s

/-- A new record (10 R157). -/
def newRecord (s : State) (k : Kind) (n : Nat) (sev : Fin 4) : FaultRec :=
  { kind := k, subject := n, severity := sev, ack := k.ack, latched := false, count := 1,
    firstSeen := wholeMs s.timeUs, order := s.faults.nextOrder, announced := false, merged := [] }

/-- Put a new record into a general place. -/
def placeRecord (i : Fin 15) (k : Kind) (n : Nat) (sev : Fin 4) (s : State) : State :=
  markFaultChange { s with faults := { s.faults with places := s.faults.places.set i (some (newRecord s k n sev))
                                                     nextOrder := s.faults.nextOrder + 1 } }

/-- The general record that gives way to a condition of this severity: the oldest of severity 0 or 1 and not above it
(10 R158). -/
def Faults.victim (f : Faults) (sev : Fin 4) : Option (Fin 15 × FaultRec) :=
  (allFin 15).foldl (fun best i =>
    match f.places[i] with
    | none => best
    | some r =>
      if r.severity ≤ 1 ∧ r.severity ≤ sev then
        match best with
        | none => some (i, r)
        | some (_, q) => if r.order < q.order then some (i, r) else best
      else best) none

/-- The aggregate takes a condition into its merged set (10 R158). -/
def FaultRec.join (r : FaultRec) (k : Kind) (n : Nat) (counted : Bool) (sev : Fin 4) : FaultRec :=
  let r := r.takeReport counted sev
  { r with merged := if r.merged.contains (k, n) then r.merged else r.merged ++ [(k, n)] }

/-- The aggregate as it is made (10 R158); [32]. -/
def firstAggregate (s : State) (k : Kind) (n : Nat) (sev : Fin 4) : FaultRec :=
  { newRecord s .faultListFull 0 sev with merged := [(k, n)] }

/-- Merge a condition into the aggregate (10 R158). -/
def mergeReport (k : Kind) (n : Nat) (sev : Fin 4) (counted : Bool) (s : State) : State :=
  match s.faults.aggregate with
  | none =>
    markFaultChange { s with faults.aggregate := some (firstAggregate s k n sev)
                             faults.nextOrder := s.faults.nextOrder + 1 }
  | some r =>
    markFaultChangeIf (r.unannouncedBy sev) { s with faults.aggregate := some (r.join k n counted sev) }

/-- A condition needs a new record (10 R157, R158). -/
def enterRecord (k : Kind) (n : Nat) (sev : Fin 4) (s : State) : State :=
  match vfind s.faults.places (·.isNone) with
  | some i => placeRecord i k n sev s
  | none =>
    match s.faults.victim sev with
    | some (i, r) => placeRecord i k n sev { s with faults := s.faults.settled r.kind r.subject }
    | none => mergeReport k n sev true s

/-- A condition is reported begun or occurred (10 R156 to R158; R166 for a kept condition). -/
def reportBegun (k : Kind) (n : Nat) (sev : Fin 4) (s : State) : State :=
  let counted := !s.faults.waits k n
  let s := { s with faults := s.faults.settled k n }
  match s.faults.find k n with
  | some i =>
    match s.faults.places[i] with
    | some r =>
      markFaultChangeIf (r.unannouncedBy sev)
        { s with faults.places := s.faults.places.set i (some (r.takeReport counted sev)) }
    | none => s
  | none => if s.faults.mergedHas k n then mergeReport k n sev counted s else enterRecord k n sev s

/-- What an end does to a record in a general place (10 R159): a SELF record leaves, an ACK record is LATCHED. -/
def FaultRec.ended (r : FaultRec) : Option FaultRec := if r.ack then some { r with latched := true } else none

/-- The aggregate without a member of its merged set; LATCHED when the set becomes empty (10 R159). -/
def FaultRec.without (r : FaultRec) (k : Kind) (n : Nat) : FaultRec :=
  let m := r.merged.erase (k, n)
  { r with merged := m, latched := r.latched || m.isEmpty }

/-- A condition is reported ended (10 R159). -/
def reportEnded (k : Kind) (n : Nat) (s : State) : State :=
  let s := { s with faults := s.faults.settled k n }
  match s.faults.find k n with
  | some i => { s with faults.places := s.faults.places.set i (s.faults.places[i].bind FaultRec.ended) }
  | none =>
    if s.faults.mergedHas k n then { s with faults.aggregate := s.faults.aggregate.map (·.without k n) } else s

/-- A condition that begins and ends at one event (10 R156, R157). -/
def reportOnce (k : Kind) (n : Nat) (sev : Fin 4) (s : State) : State := reportEnded k n (reportBegun k n sev s)

/-- Report an end when a condition holds. -/
def reportEndedIf (b : Bool) (k : Kind) (n : Nat) (s : State) : State := if b then reportEnded k n s else s

/-- Every LATCHED record leaves the list (10 R160). -/
def Faults.acknowledged (f : Faults) : Faults :=
  { f with places := f.places.map fun o => o.filter fun r => !r.latched
           aggregate := f.aggregate.filter fun r => !r.latched }

/-- The record offered to TOP_FAULT (10 R164): of those unannounced and at or above the notify threshold the one of
highest severity, and among equals of lowest entry order. -/
def Faults.top (f : Faults) (threshold : Fin 4) : Option FaultRec :=
  (f.records.filter fun r => !r.announced && decide (threshold ≤ r.severity)).foldl (fun best r =>
    match best with
    | none => some r
    | some q => if q.severity < r.severity ∨ (q.severity = r.severity ∧ r.order < q.order) then some r else some q) none

/-- Mark the record of an entry order announced (09 R144). -/
def Faults.announce (f : Faults) (order : Nat) : Faults :=
  let mark (r : FaultRec) : FaultRec := if r.order = order then { r with announced := true } else r
  { f with places := f.places.map (Option.map mark), aggregate := f.aggregate.map mark }

/-- The TOP_FAULT code of a record (09 R144). -/
def FaultRec.topCode (r : FaultRec) : Nat := r.kind.code * 256 + r.subject

end Sys2Proof.Machine
end

