-- ==== Sys2Proof/Machine/Responses.lean ====
section
/-! DEFINITION. What acts between the periods of the jobs: the governor's hold (05 R68), the freezing and rejoining of
arms (06 R104 to R107), the closing of banks (08 R132), the publication of the response level that calls them (10 R161),
and the acknowledgement (10 R160). -/

namespace Sys2Proof.Machine

/-! ## The governor's hold -/

/-- The governor record in HELD (05 R68): everything at rest, cruise disengaged. -/
def Gov.held (g : Gov) : Gov :=
  { g with state := .held, dir := 0, v := 0, p := 0, i := 0, mark := .none, cruise := none, engineLow := false }

/-- The governor enters HELD, or stays in it; ENGINE_LOW ends at that moment (05 R68, R85); [46]. -/
def enterHeld (s : State) : State :=
  reportEndedIf s.gov.engineLow .engineLow 0 { s with gov := s.gov.held }

/-! ## Arms and the lift circuit -/

/-- Put an arm's record; a change of its state marks the ARM_CHANGE trigger (06 R108). -/
def putArm (a : Arm) (r : ArmRec) (s : State) : State :=
  { s with arms := s.arms.set a r
           ev.armChange := s.ev.armChange || r.state != (s.arms.get a).state }

/-- The configuration of an arm. -/
def State.armCfg (s : State) (a : Arm) : ArmCfg := s.tables.arms.arms.get a

/-- Whether an arm's brush is on the road. -/
def ArmState.turning : ArmState → Bool
  | .working | .float => true
  | .init | .stowed | .waitDown | .lowering | .waitUp | .lifting | .frozen | .faulted => false

/-- Whether an arm waits in the lift queue or moves. -/
def ArmState.inCircuit : ArmState → Bool
  | .waitDown | .waitUp | .lowering | .lifting => true
  | .init | .stowed | .working | .float | .frozen | .faulted => false

/-- An arm leaves the lift queue: its wait timer stops, LIFT_STARVED ends if it is active [40], and the arms behind it
move up (06 R94, R97). -/
def leaveQueue (a : Arm) (s : State) : State :=
  let r := s.arms.get a
  reportEnded .liftStarved (armNumber a)
    { s with arms := s.arms.set a { r with waitT := none, starved := false }
             lift.queue := s.lift.queue.erase a }

/-- Place an arm in the lift queue by its wait kind (06 R96): a WAIT_UP arm behind every WAIT_UP arm and ahead of
every WAIT_DOWN arm, a WAIT_DOWN arm last. -/
def queueInsert (arms : PerArm ArmRec) (up : Bool) (a : Arm) (q : List Arm) : List Arm :=
  let isUp (x : Arm) : Bool := (arms.get x).state == .waitUp
  if up then q.takeWhile isUp ++ a :: q.dropWhile isUp else q ++ [a]

/-- The joining rule (06 R96) at a response level, for an arm in INIT as for any other; [41]. -/
def mayJoin (s : State) (level : Fin 4) : Bool :=
  decide (s.lift.queue.length < 2) && decide (level < 3) && !s.shutdown.hold

/-- An arm joins the lift queue with a wait origin; its wait timer starts (06 R96). -/
def join (a : Arm) (up : Bool) (origin : WaitOrigin) (s : State) : State :=
  let q := queueInsert s.arms up a s.lift.queue
  let r := s.arms.get a
  putArm a { r with state := if up then .waitUp else .waitDown, origin := origin, floatT := none,
                    waitT := msTimer Config.waitMs }
    { s with lift.queue := q }

/-- Which way an arm was going (06 R104). -/
def ArmState.motion : ArmState → Motion
  | .waitDown | .lowering => .down
  | .waitUp | .lifting => .up
  | .init | .stowed | .working | .float | .frozen | .faulted => .none

/-- The wait origin a freeze leaves (06 R104): kept from a waiting arm, MIDWAY otherwise. -/
def frozenOrigin (r : ArmRec) : WaitOrigin :=
  match r.state with
  | .waitDown | .waitUp => r.origin
  | .init | .stowed | .lowering | .working | .float | .lifting | .frozen | .faulted => .midway

/-- The order in which arms are taken from the circuit: the holder, then the queue from its head (06 R104). -/
def Lift.order (l : Lift) : List Arm := l.holder.toList ++ l.queue

/-- The circuit with no holder and no queue. -/
def Lift.emptied (l : Lift) : Lift := { l with holder := none, queue := [] }

/-- Freeze one arm at level 3 (06 R104); LIFT_STARVED ends if it is active; [40]. -/
def freezeArm (order : List Arm) (s : State) (a : Arm) : State :=
  let r := s.arms.get a
  if r.state.inCircuit then
    reportEnded .liftStarved (armNumber a)
      (putArm a { r with state := .frozen, valve := 0, motionT := none, waitT := none, starved := false,
                         frozenMotion := r.state.motion, origin := frozenOrigin r,
                         frozenRank := order.idxOf a + 1 } s)
  else s

/-- Level 3 freezes the lift circuit (06 R104). -/
def freezeCircuit (s : State) : State :=
  let order := s.lift.order
  let s := allArms.foldl (freezeArm order) s
  { s with lift := s.lift.emptied }

/-- Freeze one fitted arm at the start of ignition shutdown (06 R107); its obstruction hold is cleared [42], and
its conditions end if they are active [40]. -/
def shutdownFreezeArm (order : List Arm) (s : State) (a : Arm) : State :=
  let r := s.arms.get a
  if (s.armCfg a).fitted then
    reportEnded .armObstructed (armNumber a)
      (reportEnded .liftStarved (armNumber a)
        (putArm a { r with state := .frozen, valve := 0, pressure := 0, rpm := 0, scaled := 0, motionT := none,
                           floatT := none, waitT := none, starved := false, obstructed := false,
                           frozenMotion := r.state.motion, origin := frozenOrigin r,
                           frozenRank := order.idxOf a + 1 } s))
  else s

/-- The start of ignition shutdown freezes every fitted arm (06 R107). -/
def shutdownFreeze (s : State) : State :=
  let order := s.lift.order
  let s := allArms.foldl (shutdownFreezeArm order) s
  { s with lift := s.lift.emptied }

/-- A FROZEN arm rejoins the queue if the joining rule lets it, keeping its wait origin (06 R106). -/
def rejoinArm (s : State) (a : Arm) : State :=
  let r := s.arms.get a
  if r.state == .frozen && mayJoin s s.faults.level then
    match r.frozenMotion with
    | .up => join a true r.origin s
    | .down => join a false r.origin s
    | .none => s
  else s

/-- The FROZEN arms in the order of 06 R106: frozen motion UP first, then DOWN, each in frozen rank. Arms of one rank
stand in the order SL, SR, MB; [10]. -/
def frozenOrder (arms : PerArm ArmRec) : List Arm :=
  [Motion.up, Motion.down].flatMap fun m => [1, 2, 3].flatMap fun k =>
    allArms.filter fun a =>
      let r := arms.get a
      r.state == .frozen && r.frozenMotion == m && r.frozenRank == k

/-- FROZEN arms rejoin when a level below 3 is published, unless the shutdown hold is present (06 R106). -/
def rejoinFrozen (s : State) : State := (frozenOrder s.arms).foldl rejoinArm s

/-! ## Spray banks -/

/-- The pump duty for a total flow and open banks (08 R134). -/
def pumpDuty (cfg : SprayConfig) (anyOpen : Bool) (q : Nat) : Nat :=
  if anyOpen then max (min (q * 1000 / cfg.qmax) 1000) cfg.minDuty else 0

/-- Whether any bank is open. -/
def anyOpen (b : PerArm Bank) : Bool := b.sl.isOpen || b.sr.isOpen || b.mb.isOpen

/-- The total flow (08 R133). -/
def totalFlow (b : PerArm Bank) : Nat := b.sl.flow + b.sr.flow + b.mb.flow

/-- A bank that closes has its flow set to 0. -/
def closeBank (close : Bool) (b : Bank) : Bank := if close then ⟨false, 0⟩ else b

/-- Close the open banks among those named; when one closes, Q and the duty are formed afresh (08 R132). -/
def closeBanks (close : PerArm Bool) (s : State) : State :=
  let b := s.spray.banks
  if (close.sl && b.sl.isOpen) || (close.sr && b.sr.isOpen) || (close.mb && b.mb.isOpen) then
    let b : PerArm Bank := ⟨closeBank close.sl b.sl, closeBank close.sr b.sr, closeBank close.mb b.mb⟩
    let q := totalFlow b
    { s with spray.banks := b, spray.q := q, spray.duty := pumpDuty s.tables.spray (anyOpen b) q }
  else s

/-- An arm event closes the bank of each arm that is not WORKING or FLOAT (08 R132). -/
def banksFollowArms (s : State) : State := closeBanks (s.arms.map fun r => !r.state.turning) s

/-! ## The response level -/

/-- Publish a level (10 R161): the governor enters HELD and the restart lock is set at 3 (05 R68, R73), the circuit
freezes at 3 and FROZEN arms rejoin below 3 (06 R104, R106), every bank closes at 2 or 3 (08 R132). -/
def publish (l : Fin 4) (s : State) : State :=
  let s := markFaultChange { s with faults.level := l }
  let s := if l = 3 then freezeCircuit (enterHeld { s with gov.lock := true }) else rejoinFrozen s
  if 2 ≤ l then closeBanks (.all true) s else s

/-- Form the level anew and publish it when it differs. -/
def formOnce (s : State) : State :=
  if s.faults.formed = s.faults.level then s else publish s.faults.formed s

/-- The level is formed anew at an event that changes the list or the latch (10 R161). The second forming takes in what
the first publication itself reported (ENGINE_LOW or LIFT_STARVED ended). -/
def formLevel (s : State) : State := formOnce (formOnce s)

/-! ## Acknowledgement -/

/-- A FAULTED arm enters INIT at an acknowledgement (06 R100). -/
def unfaultArm (s : State) (a : Arm) : State :=
  let r := s.arms.get a
  if r.state == .faulted then putArm a { r with state := .init } s else s

/-- An acknowledgement (10 R160): LATCHED records leave, the restart lock is cleared, FAULTED arms enter INIT. The
level is formed anew at the end of the event. -/
def acknowledge (s : State) : State :=
  allArms.foldl unfaultArm { s with faults := s.faults.acknowledged, gov.lock := false }

/-- The reading of FAULT_ACK is compared with the previous one; a change from 0 to nonzero is an acknowledgement
(02 R38), taken after what the event's signals report; [37]. -/
def weighAck (s : State) : State :=
  let v := (s.role .faultAck).value
  let was := s.ackReading
  let s := { s with ackReading := v }
  if was = 0 ∧ v ≠ 0 then acknowledge s else s

end Sys2Proof.Machine
end

