-- ==== Sys2Proof/Machine/Sends.lean ====
section
/-! DEFINITION. The send channels (09): value sources and the building of frames, offers and output windows, sends,
completion and chaining, triggers; the placing of service replies (11 R168); the handing of a freed place (01 R6); and
the end of an event, where the level is formed and the triggers are given (09 R147). -/

namespace Sys2Proof.Machine

/-! ## Value sources (09 R142, R143) -/

/-- The code of an arm state (06 R108). -/
def ArmState.code : ArmState → Nat
  | .init => 0
  | .stowed => 1
  | .waitDown => 2
  | .lowering => 3
  | .working => 4
  | .float => 5
  | .waitUp => 6
  | .lifting => 7
  | .frozen => 8
  | .faulted => 9

/-- BANK_MASK (08 R137). -/
def Spray.mask (p : Spray) : Nat :=
  (if p.banks.sl.isOpen then 1 else 0) + (if p.banks.sr.isOpen then 2 else 0) + (if p.banks.mb.isOpen then 4 else 0)

/-- VOLUME, whole ml (08 R135). -/
def Spray.volumeMl (p : Spray) : Nat := p.volume / 1000

/-- Whether a source commands motion and so reads 0 at level 3 (09 R143). -/
def Source.neutralAt3 : Source → Bool
  | .pumpStroke | .armValve _ | .armPressure _ | .brushRpm _ | .sprayDuty | .bankMask => true
  | .slot _ | .motorStroke | .travelDir | .cmdSpeed | .measSpeed | .armState _ | .volume | .engineRequest
  | .responseLevel | .topFault | .profile => false

/-- What a source's owner holds (09 R142). -/
def ownerValue (s : State) : Source → Int
  | .slot n => s.slotReads n
  | .pumpStroke => s.gov.p
  | .motorStroke => s.gov.motor
  | .travelDir => s.gov.dir
  | .cmdSpeed => s.gov.v * s.gov.dir
  | .measSpeed => s.capture.s
  | .armValve a => (s.arms.get a).valve
  | .armPressure a => (s.arms.get a).pressure
  | .brushRpm a => (s.arms.get a).scaled
  | .armState a => (s.arms.get a).state.code
  | .sprayDuty => s.spray.duty
  | .bankMask => s.spray.mask
  | .volume => s.spray.volumeMl
  | .engineRequest => s.alloc.request
  | .responseLevel => s.faults.level.val
  | .topFault => ((s.faults.top s.tables.drive.notifyThreshold).map FaultRec.topCode).getD 0
  | .profile => s.selector.active.val

/-- What a source reads at a build (09 R142, R143). -/
def sourceValue (s : State) (src : Source) : Int :=
  if s.faults.level = 3 ∧ src.neutralAt3 then 0 else ownerValue s src

/-! ## Building a frame (09 R141) -/

/-- Template `n`. -/
def State.template (s : State) (n : Nat) : Template := s.tables.templates[Fin.ofNat 32 n]

/-- Fill one place. -/
def fillPlace (s : State) (data : Nat) (p : Place) : Nat :=
  putField p.bitPos p.width data
    (twosComplement p.width (saturate p.signed p.width (scale (sourceValue s p.source) p.mul p.div p.off)))

/-- Build the frame of a template from the values of this moment. -/
def buildFrame (s : State) (t : Template) : Frame :=
  { fmt := t.fmt, id := t.id
    data := leBytes t.len (t.places.foldl (fillPlace s) (leNat (t.bytes.toList.take t.len))) }

/-- Whether a template carries TOP_FAULT. -/
def Template.carriesTop (t : Template) : Bool := t.places.any fun p => p.source == .topFault

/-- A frame that carries TOP_FAULT and enters its queue marks the record it names announced (09 R144). -/
def announceTop (t : Template) (s : State) : State :=
  if t.carriesTop then
    match s.faults.top s.tables.drive.notifyThreshold with
    | some r => { s with faults := s.faults.announce r.order }
    | none => s
  else s

/-! ## Channel state -/

/-- Configuration of a channel. -/
def State.chanCfg (s : State) (ch : Fin 6) : ChannelCfg := s.tables.channels[ch]

/-- Run-time state of a channel. -/
def State.chan (s : State) (ch : Fin 6) : ChanRun := s.channels[ch]

/-- Change the run-time state of a channel. -/
def onChan (ch : Fin 6) (f : ChanRun → ChanRun) (s : State) : State :=
  { s with channels := s.channels.set ch (f s.channels[ch]) }

/-- A frame of template `n` is built and enters the queue of port `q` for a channel (09 R141, R151). -/
def placeChannelFrame (ch : Fin 6) (n : Nat) (q : Port) (s : State) : State :=
  let t := s.template n
  let f := buildFrame s t
  announceTop t (onChan ch (fun c => { c with out := c.out + 1 })
    (s.onPort q fun p => p.enter f (.channel ch)))

/-- The next position of a run (09 R149). -/
def ChannelCfg.next (c : ChannelCfg) (pos : Nat) : Nat :=
  if pos + 1 < c.runStart + c.runLen then pos + 1 else c.runStart

/-- The position advances; a set stop mark keeps it (09 R149 to R151). -/
def stepPosition (ch : Fin 6) (s : State) : State :=
  onChan ch (fun c => if c.stop then c else { c with position := (s.chanCfg ch).next c.position }) s

/-- Whether a send offers a further frame: mode SEQUENCE, not cut, and the run not yet ended (09 R149, R150). -/
def moreToOffer (ch : Fin 6) (s : State) : Bool :=
  !(s.chan ch).stop && (s.chanCfg ch).sequence && (s.chan ch).position != (s.chanCfg ch).runStart

/-! ## Offers (09 R151, R154) -/

/-- Whether a window takes a frame (01 R18). -/
def Window.takes (w : Window) (fmt : Fmt) (id : Ident) : Bool :=
  w.fmt == fmt && decide (w.lo.toNat ≤ id.toNat) && decide (id.toNat ≤ w.hi.toNat)

/-- Whether one of a port's windows takes a frame (01 R18). -/
def insideWindows (s : State) (q : Port) (fmt : Fmt) (id : Ident) : Bool :=
  let w := s.tables.windows.get q
  w.w0.takes fmt id || w.w1.takes fmt id

/-- A frame outside the windows: the channel is disabled and stop-marked and SEND_WINDOW is reported (09 R154). -/
def refuseWindow (ch : Fin 6) (s : State) : State :=
  reportOnce .sendWindow ch.val 1 (onChan ch (fun c => { c with enable := false, pending := false, stop := true }) s)

/-- A full queue: the channel becomes a waiting holder and STALLED (01 R3, 09 R151). -/
def stall (ch : Fin 6) (n : Nat) (q : Port) (s : State) : State :=
  onChan ch (fun c => { c with state := .stalled, awaited := some n })
    (s.onPort q fun p => { p with holders := p.holders ++ [.channel ch] })

/-- One offer of the template at the position; `true` says it was placed or counted as sent. -/
def offerOne (ch : Fin 6) (s : State) : Bool × State :=
  let n := (s.chan ch).position
  let t := s.template n
  if insideWindows s t.port t.fmt t.id then
    let p := s.ports.get t.port
    if !p.on then (true, s)
    else if p.full then (false, stall ch n t.port s)
    else (true, placeChannelFrame ch n t.port s)
  else (false, refuseWindow ch s)

/-- Offer frames one after another, at most as many as the run is long. -/
def offerRun : Nat → Fin 6 → State → State
  | 0, _, s => s
  | k + 1, ch, s =>
    match offerOne ch s with
    | (true, s) =>
      let s := stepPosition ch s
      if moreToOffer ch s then offerRun k ch s else s
    | (false, s) => s

/-- Go on with a send after its awaited frame was placed or counted (09 R151). -/
def continueSend (ch : Fin 6) (s : State) : State :=
  let s := stepPosition ch s
  if moreToOffer ch s then offerRun (s.chanCfg ch).runLen ch s else s

/-! ## Sends (09 R148 to R153) -/

/-- A send begins: the pending flag is cleared, the state becomes SENDING, a SEQUENCE goes to the run start. -/
def beginSend (ch : Fin 6) (s : State) : State :=
  let cfg := s.chanCfg ch
  onChan ch (fun c => { c with pending := false, state := .sending
                               position := if cfg.sequence then cfg.runStart else c.position }) s

/-- Whether a send is complete: its last frame placed or counted, no record out (09 R152). -/
def sendComplete (ch : Fin 6) (s : State) : Bool :=
  (s.chan ch).state == .sending && (s.chan ch).out == 0

/-- A trigger reaches a channel (09 R148); `start` starts a send. -/
def triggerWith (start : Fin 6 → State → State) (ch : Fin 6) (s : State) : State :=
  if (s.chan ch).enable then
    let s := onChan ch (fun c => { c with pending := true }) s
    if (s.chan ch).state == .idle then start ch s else s
  else s

/-- A counted send (09 R153): the remaining count of a channel that is not continuous falls by 1, and at 0 the channel
disables itself, sets done, triggers its chain target and may notify CHANNEL_DONE. -/
def countSend (start : Fin 6 → State → State) (ch : Fin 6) (s : State) : State :=
  let cfg := s.chanCfg ch
  if cfg.continuous then s
  else
    let left := (s.chan ch).remaining - 1
    let s := onChan ch (fun c => { c with remaining := left }) s
    if left = 0 then
      let s := onChan ch (fun c => { c with enable := false, pending := false, done := true }) s
      let s := match cfg.chain with
        | none => s
        | some target => triggerWith start target s
      if cfg.notify then markFaultChange s else s
    else s

/-- A send completes (09 R152); `start` starts a send. -/
def completeWith (start : Fin 6 → State → State) (ch : Fin 6) (s : State) : State :=
  let stopped := (s.chan ch).stop
  let s := onChan ch (fun c => { c with state := .idle, stop := false }) s
  let s := if stopped then s else countSend start ch s
  if (s.chan ch).enable && (s.chan ch).pending && (s.chan ch).state == .idle then start ch s else s

/-- Start a send; `fuel` bounds the sends that chain and pending triggers start one after another at one event. -/
def startSend : Nat → Fin 6 → State → State
  | 0, _, s => s
  | fuel + 1, ch, s =>
    let s := offerRun (s.chanCfg ch).runLen ch (beginSend ch s)
    if sendComplete ch s then completeWith (startSend fuel) ch s else s

/-- More sends than one event can start: each start clears a pending flag, and a flag is set again only by a chain
trigger, of which each channel gives at most one, since it disables itself; [34]. -/
def sendFuel : Nat := 16

/-- Give a channel a trigger (09 R148). -/
def giveTrigger (ch : Fin 6) (s : State) : State := triggerWith (startSend sendFuel) ch s

/-- Complete a channel's send if it is complete (09 R152). -/
def completeIfDone (ch : Fin 6) (s : State) : State :=
  if sendComplete ch s then completeWith (startSend sendFuel) ch s else s

/-- The sends that this event has brought to an end complete, in an order the free value chooses, before the event's
triggers are given [45]. The level is formed first, so that the builds of the sends a completion starts follow every
other change of the event (09 R147), and again after each, so that after a refusal (R154) the next build reads the list
and the level of one event (R142). -/
def completeAll (s : State) : State :=
  let s := formLevel s
  let (chs, s) := s.anyOrder ((allFin 6).filter fun ch => sendComplete ch s)
  chs.foldl (fun s ch => formLevel (completeIfDone ch s)) s

/-! ## Service replies (11 R168) -/

/-- The reply format and identifier in force (01 R20). -/
def replyId (s : State) : Fmt × Ident := (s.tables.ports.repFmt, s.tables.ports.repId)

/-- The frame of a reply: the format and identifier of the moment it was offered, which is now unless it waited. -/
def replyFrame (s : State) (r : Reply) : Frame :=
  let q := r.offered.getD (replyId s)
  { fmt := q.1, id := q.2, data := r.data }

/-- The first reply of the list is placed in the C-port queue and leaves the list; the RESTART reply is followed by its
entry order (11 R177). -/
def placeReply (s : State) : State :=
  match s.service.replies with
  | [] => s
  | r :: rest =>
    let order := s.ports.c.nextOrder
    let s := s.onPort .c fun p => p.enter (replyFrame s r) .service
    { s with service.replies := rest
             service.restart := if r.isRestart then .queued order else s.service.restart }

/-- The first reply of the list is counted as sent (01 R3). -/
def countReply (s : State) : State :=
  match s.service.replies with
  | [] => s
  | r :: rest =>
    { s with service.replies := rest
             service.restart := if r.isRestart then .left else s.service.restart }

/-- The first reply of the list waits under the format and identifier it is offered under. -/
def holdReply (s : State) : State :=
  match s.service.replies with
  | [] => s
  | r :: rest => { s with service.replies := { r with offered := some (r.offered.getD (replyId s)) } :: rest }

/-- Offer the first reply of the list to the C-port queue; a full queue makes the service unit a waiting holder. -/
def offerReply (s : State) : State :=
  if s.service.replies.isEmpty then s
  else if !s.ports.c.on then countReply s
  else if s.ports.c.full then (holdReply s).onPort .c fun p => { p with holders := p.holders ++ [.service] }
  else placeReply s

/-- Offer the replies of the list one after another; the list holds at most two. -/
def offerReplies (s : State) : State :=
  let s := offerReply s
  if s.ports.c.holders.contains .service then s else offerReply s

/-- A reply is made into the list; it is offered at once unless one before it waits. -/
def makeReply (r : Reply) (s : State) : State :=
  let waiting := !s.service.replies.isEmpty
  let s := { s with service.replies := s.service.replies ++ [r] }
  if waiting then s else offerReply s

/-! ## A freed place (01 R6) -/

/-- Hand a free place of an ON port's queue to the holder that has waited longest. -/
def handPlace (q : Port) (s : State) : State :=
  let p := s.ports.get q
  if p.on && !p.full then
    match p.holders with
    | [] => s
    | h :: rest =>
      let s := s.onPort q fun p => { p with holders := rest }
      match h with
      | .channel ch =>
        let n := (s.chan ch).awaited.getD (s.chan ch).position
        let s := onChan ch (fun c => { c with state := .sending, awaited := none }) s
        continueSend ch (placeChannelFrame ch n q s)
      | .service => offerReplies s
  else s

/-! ## The end of an event (09 R147, 10 R161) -/

/-- Whether the event gives a trigger to channels of this source now. -/
def EventMarks.gives (m : EventMarks) : Trigger → Bool
  | .governor => m.period == some .governor
  | .armPeriod => m.period == some .armPeriod
  | .allocator => m.period == some .allocator
  | .spray => m.period == some .spray
  | .armChange => m.armChange && !m.armGiven
  | .faultChange => m.faultChange && !m.faultGiven
  | .interval | .chain | .service => false

/-- The marks after those triggers are given: one trigger per source and event. -/
def EventMarks.given (m : EventMarks) : EventMarks :=
  { period := .none, armChange := false, faultChange := false, armGiven := m.armGiven || m.armChange,
    faultGiven := m.faultGiven || m.faultChange }

/-- Give the triggers of the event to their channels, in an order the free value chooses (09 R147, R148); the level is
formed after each, so that after a refusal (R154) the next build reads the list and the level of one event (R142). -/
def giveTriggers (s : State) : State :=
  let (chs, s) := s.anyOrder ((allFin 6).filter fun ch => s.ev.gives (s.chanCfg ch).source)
  chs.foldl (fun s ch => formLevel (giveTrigger ch s)) { s with ev := s.ev.given }

/-- The end of an event of the running part: the level is formed, then the triggers are given; a trigger's sends may
report SEND_WINDOW or complete a channel, so FAULT_CHANGE, and through a publication ARM_CHANGE, may follow; [14],
[15]. The sends that the event's own body has started come before these; [45]. -/
def finish (s : State) : State :=
  if s.power = .running then
    let s := giveTriggers (formLevel s)
    let s := giveTriggers (formLevel s)
    let s := giveTriggers (formLevel s)
    { formLevel s with ev := .none }
  else { s with ev := .none }

/-- One event, taken whole: its body from clear marks, then its end. -/
def event (body : State → State) (s : State) : State := finish (body { s with ev := .none })

end Sys2Proof.Machine
end

