-- ==== Sys2Proof/Machine/Events.lean ====
section
/-! DEFINITION. The forms an event takes: one that happens to the running part, and the expiry of a timer, which brings
the time forward to the moment the timer runs out. -/

namespace Sys2Proof.Machine

/-- What a command answers. -/
abbrev Answer := Host.Outcome State Fault Refusal

/-- An event of the running part that happens when its condition stands; otherwise nothing changes; [24]. -/
def happens (c : Bool) (body : State → State) (s : State) : Answer :=
  if s.power = .running ∧ c = true then .next (event body s) else .next s

/-- The expiry of a timer of the running part: the time runs on to it and the event is taken. A stopped timer does not
expire; [1]. -/
def expires (t : Timer) (body : State → State) (s : State) : Answer :=
  if s.power = .running then
    match t with
    | some r => .next (event body (advance r s))
    | none => .next s
  else .next s

end Sys2Proof.Machine
end

