-- ==== Sys2Proof/Machine/Signals.lean ====
section
/-! DEFINITION. The signal store (02): direct feeding and refresh, the sender table, voted slots, and the expiries of
freshness timers, sender timers and silent times. -/

namespace Sys2Proof.Machine

/-! ## Slots -/

/-- Change the run-time fields of a slot. -/
def onSlot (n : Fin 48) (f : SlotRun → SlotRun) (s : State) : State :=
  { s with slots := s.slots.set n (f s.slots[n]) }

/-- The freshness timer of a slot started with its timeout; none when the timeout is 0 (R26). -/
def SlotCfg.fullTimer (c : SlotCfg) : Timer := if c.timeout = 0 then none else msTimer c.timeout

/-- SIGNAL_STALE begins for a slot (R25, R34). -/
def staleBegun (n : Fin 48) (s : State) : State :=
  reportBegun .signalStale n.val s.tables.slots[n].severity s

/-- A VALUE pick writes a directly fed slot (R23). -/
def writeSlot (n : Fin 48) (x : Int) (s : State) : State :=
  let c := s.tables.slots[n]
  let y := clampInt c.min c.max x
  onSlot n (fun r => { r with last := y, clamped := y != x }) s

/-- A TOKEN pick marks the parity it has seen, in a slot with paired refresh (R24). -/
def tokenSlot (n : Fin 48) (x : Int) (s : State) : State :=
  if s.tables.slots[n].paired then
    onSlot n (fun r => if x % 2 = 0 then { r with evenSeen := true } else { r with oddSeen := true }) s
  else s

/-- The refresh of a directly fed slot (R23 to R25): parity flags cleared under paired refresh, status FRESH, timer
restarted, SIGNAL_STALE ended when the slot was not FRESH; [30]. -/
def refreshSlot (n : Fin 48) (s : State) : State :=
  let c := s.tables.slots[n]
  let was := s.slots[n].status
  reportEndedIf (was != .fresh) .signalStale n.val
    (onSlot n (fun r => { r with status := .fresh, timer := c.fullTimer
                                 evenSeen := if c.paired then false else r.evenSeen
                                 oddSeen := if c.paired then false else r.oddSeen }) s)

/-- A slot as a restart sets it (R27). -/
def restartSlot (n : Fin 48) (s : State) : State :=
  onSlot n (fun _ => SlotRun.restarted s.tables.slots[n]) s

/-! ## Voted slots (R34 to R36) -/

/-- The FRESH records of a slot that hold a last value. -/
def freshSenders (s : State) (n : Fin 48) : List SenderRec :=
  s.senders.toList.filterMap fun o => o.filter fun r => r.slot == n && r.fresh && r.last.isSome

/-- The last value of a record, 0 when absent. -/
def SenderRec.value (r : SenderRec) : Int := r.last.getD 0

/-- The vote over the fresh records (R35). -/
def voteOf (v : Vote) : List SenderRec → Int
  | [] => 0
  | r :: rs =>
    match v with
    | .latest => (rs.foldl (fun b q => if b.written < q.written then q else b) r).value
    | .highest => rs.foldl (fun b q => max b q.value) r.value
    | .none | .lowest | .agree => rs.foldl (fun b q => min b q.value) r.value

/-- Two of the values differ by more than the tolerance (R36). -/
def disagrees (tolerance : Nat) : List SenderRec → Bool
  | [] => false
  | r :: rs => rs.any (fun q => decide (tolerance < (r.value - q.value).natAbs)) || disagrees tolerance rs

/-- The status of a voted slot is decided from the fresh count (R34). -/
def decideStatus (n : Fin 48) (s : State) : State :=
  if s.tables.slots[n].minFresh ≤ (freshSenders s n).length then
    let was := s.slots[n].status
    reportEndedIf (was != .fresh) .signalStale n.val (onSlot n (fun r => { r with status := .fresh, timer := none }) s)
  else
    match s.slots[n].status with
    | .fresh => staleBegun n (onSlot n (fun r => { r with status := .stale }) s)
    | .never | .stale => s

/-- The recompute of a voted slot (R35, R36). -/
def recompute (n : Fin 48) (s : State) : State :=
  let c := s.tables.slots[n]
  if c.vote = .none then s
  else
    let s := decideStatus n s
    let fresh := freshSenders s n
    let s := if s.slots[n].status = .fresh then onSlot n (fun r => { r with last := voteOf c.vote fresh }) s else s
    if c.vote = .agree then
      if disagrees c.tolerance fresh then reportBegun .signalDisagree n.val c.severity s
      else reportEnded .signalDisagree n.val s
    else s

/-! ## The sender table (R30 to R33) -/

/-- Change the record in a place. -/
def onSender (i : Fin 24) (f : SenderRec → SenderRec) (s : State) : State :=
  { s with senders := s.senders.set i (s.senders[i].map f) }

/-- Whether a record has a key. -/
def SenderRec.hasKey (q : Port) (f : Frame) (r : SenderRec) : Bool := r.port == q && r.fmt == f.fmt && r.id == f.id

/-- The slots the records of a list of places serve. -/
def servedSlots (gone : List (Option SenderRec)) : List (Fin 48) := (gone.filterMap fun o => o.map (·.slot)).eraseDups

/-- Remove the records that satisfy `p` (R33): their places are free, SENDER_TABLE_FULL ends, and each slot they served
is recomputed once, in the order of the lowest place that served it [38], unless `reset` says that the same event sets
it as a restart does. -/
def removeSenders (p : SenderRec → Bool) (reset : Fin 48 → Bool) (s : State) : State :=
  let gone := s.senders.toList.filter fun o => o.any p
  if gone.isEmpty then s
  else
    let s := { s with senders := s.senders.map fun o => o.filter fun r => !p r }
    let s := reportEnded .senderTableFull 0 s
    ((servedSlots gone).filter fun n => !reset n).foldl (fun s n => recompute n s) s

/-- Remove the record in a place (R33). -/
def removePlace (i : Fin 24) (s : State) : State :=
  match s.senders[i] with
  | none => s
  | some r => recompute r.slot (reportEnded .senderTableFull 0 { s with senders := s.senders.set i none })

/-- The record that R30 creates. -/
def newSender (q : Port) (f : Frame) (entry : Fin 96) (slot : Fin 48) : SenderRec :=
  { port := q, fmt := f.fmt, id := f.id, entry := entry, slot := slot, last := none, written := 0, evenSeen := false,
    oddSeen := false, timer := none, fresh := false, silentUs := 0 }

/-- A new record is put into a place. -/
def createSender (i : Fin 24) (q : Port) (f : Frame) (entry : Fin 96) (slot : Fin 48) (s : State) : State :=
  { s with senders := s.senders.set i (some (newSender q f entry slot)) }

/-- Present a frame to the sender table (R30): the place of its record, or none when the table refuses it. -/
def presentSender (q : Port) (f : Frame) (entry : Fin 96) (slot : Fin 48) (s : State) : Option (Fin 24) × State :=
  match vfind s.senders (fun o => o.any (SenderRec.hasKey q f)) with
  | some i =>
    if s.senders[i].any (fun r => r.entry == entry) then (some i, s)
    else (some i, createSender i q f entry slot (removePlace i s))
  | none =>
    match vfind s.senders (·.isNone) with
    | some i => (some i, createSender i q f entry slot s)
    | none => (none, reportBegun .senderTableFull 0 1 s)

/-- A record takes a clamped value, numbered for the LATEST vote (R31, R35). -/
def writeSender (i : Fin 24) (n : Fin 48) (x : Int) (s : State) : State :=
  let c := s.tables.slots[n]
  let y := clampInt c.min c.max x
  let s := onSlot n (fun r => { r with clamped := y != x }) s
  onSender i (fun r => { r with last := some y, written := s.written + 1 }) { s with written := s.written + 1 }

/-- A TOKEN pick marks the parity in the record (R31); [16]. -/
def tokenSender (i : Fin 24) (x : Int) (s : State) : State :=
  onSender i (fun r => if x % 2 = 0 then { r with evenSeen := true } else { r with oddSeen := true }) s

/-- The refresh of a record after all the picks (R31). Without paired refresh it leaves the parity flags as they are;
[16]. -/
def refreshSender (i : Fin 24) (n : Fin 48) (s : State) : State :=
  let c := s.tables.slots[n]
  onSender i (fun r =>
    if c.paired then
      if r.evenSeen && r.oddSeen then
        { r with evenSeen := false, oddSeen := false, fresh := true, silentUs := 0, timer := c.fullTimer }
      else r
    else { r with fresh := true, silentUs := 0, timer := c.fullTimer }) s

/-! ## Expiries -/

/-- FRESHNESS_TIMER_EXPIRY (R25, R34): STALE and SIGNAL_STALE. A voted slot's timer runs in NEVER only. -/
def freshnessExpired (n : Fin 48) (s : State) : State :=
  weighAck (staleBegun n (onSlot n (fun r => { r with timer := none, status := .stale }) s))

/-- FRESHNESS_TIMER_EXPIRY. -/
def execFreshnessTimerExpiry (n : Fin 48) (s : State) : Answer := expires s.slots[n].timer (freshnessExpired n) s

/-- SENDER_TIMER_EXPIRY (R32): SILENT, silent time from 0, the slot recomputed. -/
def senderExpired (i : Fin 24) (s : State) : State :=
  let s' := onSender i (fun r => { r with timer := none, fresh := false, silentUs := 0 }) s
  match s.senders[i] with
  | none => s'
  | some r => weighAck (recompute r.slot s')

/-- SENDER_TIMER_EXPIRY. -/
def execSenderTimerExpiry (i : Fin 24) (s : State) : Answer :=
  expires (s.senders[i].bind (·.timer)) (senderExpired i) s

/-- The time a SILENT record has left before it is removed (R32); none when its silent time is not counted. -/
def silentLeft (s : State) (r : SenderRec) : Timer :=
  let t := s.tables.slots[r.slot].timeout
  if r.fresh ∨ t = 0 then none else some (silentLimitUs t - r.silentUs)

/-- SILENT_TIME_END (R32, R33): the record is removed. -/
def execSilentTimeEnd (i : Fin 24) (s : State) : Answer :=
  expires (s.senders[i].bind (silentLeft s)) (fun s => weighAck (removePlace i s)) s

end Sys2Proof.Machine
end

