-- ==== Sys2Proof/Machine/FramePath.lean ====
section
/-! DEFINITION. The frame path (01): lookup, picks, the rewrite place, forwarding, and the link events of the port
units. -/

namespace Sys2Proof.Machine

/-! ## Lookup (R10) -/

/-- Whether a port selector takes a port. -/
def PortSel.takes : PortSel → Port → Bool
  | .any, _ => true
  | .c, q => q == .c
  | .b, q => q == .b

/-- Whether a format selector takes a format. -/
def FmtSel.takes : FmtSel → Fmt → Bool
  | .any, _ => true
  | .std, f => f == .std
  | .ext, f => f == .ext

/-- Whether an entry matches a frame that arrived on a port. -/
def MatchEntry.hits (q : Port) (f : Frame) (e : MatchEntry) : Bool :=
  e.valid && e.sel.takes q && e.fmt.takes f.fmt && (f.id &&& e.mask == e.id &&& e.mask)
  && decide (e.minLen ≤ f.data.length)

/-- The entry that wins: the matching one of lowest index. -/
def lookup (s : State) (q : Port) (f : Frame) : Option (Fin 96) := vfind s.tables.entries (MatchEntry.hits q f)

/-! ## Picks (R15, R16) -/

/-- The raw value of a field. -/
def rawField (signed : Bool) (pos w : Nat) (data : List Byte) : Int :=
  let n := field pos w (leNat data)
  if signed then signedValue w n else n

/-- The result of a pick, or none when it is skipped. -/
def Pick.result (p : Pick) (data : List Byte) : Option Int :=
  if fieldFits p.bitPos p.width data.length then
    some (scale (rawField p.signed p.bitPos p.width data) p.mul p.div p.off)
  else none

/-- A pick of a DIRECT entry is applied to its slot (02 R23, R24). -/
def applyDirectPick (data : List Byte) (s : State) (p : Pick) : State :=
  match p.result data with
  | none => s
  | some x =>
    if s.tables.slots[p.slot].vote = .none then
      match p.role with
      | .value => writeSlot p.slot x s
      | .token => tokenSlot p.slot x s
    else s

/-- After all the picks of a frame, the slot of a pick is refreshed (02 R23, R24): without paired refresh by a VALUE
pick that was applied, with it when both parities have been seen. -/
def refreshByPick (data : List Byte) (s : State) (p : Pick) : State :=
  let c := s.tables.slots[p.slot]
  let r := s.slots[p.slot]
  if (p.result data).isSome && c.vote == .none
      && (if c.paired then r.evenSeen && r.oddSeen else p.role == .value) then refreshSlot p.slot s
  else s

/-- The picks of a DIRECT entry. -/
def applyDirect (e : MatchEntry) (data : List Byte) (s : State) : State :=
  weighAck (e.picks.foldl (refreshByPick data) (e.picks.foldl (applyDirectPick data) s))

/-- A TOKEN pick of a PER_SENDER entry is applied to the record. -/
def applySenderToken (i : Fin 24) (data : List Byte) (s : State) (p : Pick) : State :=
  match p.role, p.result data with
  | .token, some x => tokenSender i x s
  | .token, none | .value, _ => s

/-- The VALUE pick of a PER_SENDER entry. -/
def MatchEntry.valuePick (e : MatchEntry) : Option Pick := e.picks.find? fun p => p.role == .value

/-- The picks of a PER_SENDER entry are applied to a record (02 R31); a skipped VALUE pick leaves it alone. -/
def applySender (i : Fin 24) (e : MatchEntry) (data : List Byte) (s : State) : State :=
  match e.valuePick with
  | none => s
  | some v =>
    match v.result data with
    | none => s
    | some x =>
      let s := writeSender i v.slot x s
      let s := e.picks.foldl (applySenderToken i data) s
      recompute v.slot (refreshSender i v.slot s)

/-! ## Forwarding (R3, R8, R13, R17) -/

/-- The severity of TX_FULL (R8). -/
def txFullSeverity : Fin 4 := 0

/-- Offer a forwarded frame to a port's queue. -/
def forward (q : Port) (f : Frame) (s : State) : State :=
  let p := s.ports.get q
  if !p.on then s
  else if p.full then reportBegun .txFull (portNumber q) txFullSeverity s
  else reportEnded .txFull (portNumber q) (s.onPort q fun p => p.enter f .forward)

/-- The value a rewrite place reads (R17). -/
def RewriteSource.value (s : State) : RewriteSource → Int
  | .engineRequest => s.alloc.request
  | .slot n => s.slotReads n

/-- The combine rules (R17). -/
def Combine.apply : Combine → Int → Int → Int
  | .replace, _, x => x
  | .max, o, x => Max.max o x
  | .min, o, x => Min.min o x

/-- The data of a frame with its rewrite place filled; unchanged when the field does not fit (R17). -/
def RewritePlace.fill (p : RewritePlace) (s : State) (data : List Byte) : List Byte :=
  if fieldFits p.bitPos p.width data.length then
    let n := leNat data
    let x := p.combine.apply (field p.bitPos p.width n) (p.source.value s)
    leBytes data.length (putField p.bitPos p.width n (saturate false p.width x).toNat)
  else data

/-- The forward of an entry's action (R13). -/
def forwardAction (e : MatchEntry) (q : Port) (f : Frame) (s : State) : State :=
  match e.action with
  | .pass | .takePass => forward (otherPort q) f s
  | .drop | .take => s
  | .rewrite =>
    match e.place with
    | some p => forward (otherPort q) { f with data := p.fill s f.data } s
    | none => forward (otherPort q) f s

/-- The action of the entry that won (R13, R14). FAULT_ACK is compared once, after the picks and every recompute they
bring, and before the forward; [37]. -/
def carryOut (entry : Fin 96) (q : Port) (f : Frame) (s : State) : State :=
  let e := s.tables.entries[entry]
  match e.mode with
  | .direct => forwardAction e q f (applyDirect e f.data s)
  | .perSender =>
    match e.valuePick with
    | none => forwardAction e q f s
    | some v =>
      match presentSender q f entry v.slot s with
      | (none, s) => s
      | (some i, s) => forwardAction e q f (weighAck (applySender i e f.data s))

/-- The default action of a port (R10). -/
def passByDefault (s : State) : Port → Bool
  | .c => s.tables.ports.passC
  | .b => s.tables.ports.passB

/-- A frame reaches the frame path (R10, R13). -/
def framePath (q : Port) (f : Frame) (s : State) : State :=
  match lookup s q f with
  | some i => carryOut i q f s
  | none => if passByDefault s q then forward (otherPort q) f s else s

/-! ## Link events (R1, R5 to R7) -/

/-- The severity of PORT_LOST (R1). -/
def portLostSeverity : Port → Fin 4
  | .b => 3
  | .c => 2

/-- A record that leaves a queue otherwise than by being sent, or by being sent, is no longer out for its channel
(09 R152). -/
def recordLeft (s : State) (r : TxRec) : State :=
  match r.origin with
  | .channel ch => onChan ch (fun c => { c with out := c.out - 1 }) s
  | .forward | .service => s

/-- The RESTART reply leaves the C-port queue (11 R177). -/
def restartReplyLeft (q : Port) (r : TxRec) (s : State) : State :=
  if q = .c ∧ s.service.restart = .queued r.order then { s with service.restart := .left } else s

/-- The FRAME_SENT event up to the completions: the offered record leaves, the freed place is handed, the link is given
its next record; [11]. -/
def sentBody (q : Port) (r : TxRec) (s : State) : State :=
  let s := s.onPort q fun p => p.removeOffered r.order
  let s := restartReplyLeft q r (recordLeft s r)
  (handPlace q s).onPort q PortUnit.offerLink

/-- The channel whose record was sent, if any, completes its send when that was its last (09 R152), and so does a send
that the handed place brought to an end. -/
def frameSentBody (q : Port) (r : TxRec) (s : State) : State := completeAll (sentBody q r s)

/-- A waiting holder of a lost port's queue is released (R7). -/
def releaseHolder (s : State) (h : Holder) : State :=
  match h with
  | .channel ch => continueSend ch (onChan ch (fun c => { c with state := .sending, awaited := none }) s)
  | .service => countReply (countReply s)

/-- LINK_LOST on an ON port (R1, R7): OFF, the queue emptied, the fault reported, the holders released one after another,
the level formed after each, and then the sends that have come to an end completed; [11], [14], [45]. -/
def linkLostBody (q : Port) (s : State) : State :=
  let p := s.ports.get q
  let s := s.onPort q fun p => { p with on := false, queue := [], offered := none, holders := [] }
  let s := p.queue.foldl (fun s r => restartReplyLeft q r (recordLeft s r)) s
  let s := formLevel (reportBegun .portLost (portNumber q) (portLostSeverity q) s)
  completeAll (p.holders.foldl (fun s h => formLevel (releaseHolder s h)) s)

/-- LINK_RESTORED on an OFF port (R1). -/
def linkRestoredBody (q : Port) (s : State) : State :=
  reportEnded .portLost (portNumber q) (s.onPort q fun p => { p with on := true })

/-- LINK_RESTORED. -/
def execLinkRestored (q : Port) (s : State) : Answer := happens (!(s.ports.get q).on) (linkRestoredBody q) s

/-- WAITING_HOLDER_PLACED alone: a free place stands while a holder waits; [25]. -/
def execWaitingHolderPlaced (q : Port) (s : State) : Answer :=
  let p := s.ports.get q
  happens (p.on && !p.full && !p.holders.isEmpty) (fun s => completeAll ((handPlace q s).onPort q PortUnit.offerLink)) s

end Sys2Proof.Machine
end

