-- ==== Sys2Proof/Machine/Capture.lean ====
section
/-! DEFINITION. Speed capture (03): edges, windows, standstill, the combination of the channels into S, and the tests
for disagreement, loss and return. -/

namespace Sys2Proof.Machine

/-- The number of a capture channel, the subject of SPEED_CHANNEL_LOST. -/
def capNumber : CapCh → Nat
  | .a => 0
  | .b => 1

/-- The other channel. -/
def otherCap : CapCh → CapCh
  | .a => .b
  | .b => .a

/-- Capture configuration of a channel in force. -/
def State.capCfg (s : State) (ch : CapCh) : CapCfg := s.tables.drive.cap ch

/-- Change a channel's run-time record. -/
def onCap (ch : CapCh) (f : CapRun → CapRun) (s : State) : State :=
  { s with capture := s.capture.set ch (f (s.capture.get ch)) }

/-- A speed signed by the direction level (R42). -/
def signedSpeed (forward : Bool) (x : Nat) : Int := if forward then x else -(x : Int)

/-- A status after a speed has been produced (R43, R44). -/
def CapStatus.measured : CapStatus → CapStatus
  | .lost => .lost
  | .running | .standstill => .running

/-! ## The combination (R47 to R51) -/

/-- A channel is usable when it is fitted and not LOST (R47). -/
def usable (s : State) (ch : CapCh) : Bool := (s.capCfg ch).fitted && (s.capture.get ch).status != .lost

/-- Two speeds agree (R47). -/
def agree (a b : Int) : Bool := decide ((a - b).natAbs ≤ max a.natAbs b.natAbs / 10 + 50)

/-- The combined speed (R47). -/
def combined (s : State) : Int :=
  let a := s.capture.a.speed
  let b := s.capture.b.speed
  match usable s .a, usable s .b with
  | true, true => if agree a b then Int.tdiv (a + b) 2 else if b.natAbs ≤ a.natAbs then a else b
  | true, false => a
  | false, true => b
  | false, false => 0

/-- The disagreement test (R48). The end is reported when the condition has begun since the restart; [46]. -/
def disagreementTest (s : State) : State :=
  let flag := usable s .a && usable s .b && !agree s.capture.a.speed s.capture.b.speed
  if flag then
    if s.capture.disagree then s
    else { s with capture := { s.capture with disagree := true, disagreeT := msTimer Config.disagreementMs } }
  else
    reportEndedIf s.capture.disagreeBegun .speedDisagree 0
      { s with capture := { s.capture with disagree := false, disagreeT := none, disagreeBegun := false } }

/-- A test timer: started when its test begins to hold, kept while it holds, stopped when it does not (R49, R50). -/
def testTimer (holds : Bool) (ms : Nat) (t : Timer) : Timer :=
  if holds then (match t with | some r => some r | none => msTimer ms) else none

/-- Whether the loss test holds for a channel (R49). -/
def lossHolds (s : State) (ch : CapCh) : Bool :=
  (s.capCfg ch).fitted && (s.capture.get ch).status == .standstill && usable s (otherCap ch)
  && decide (500 < (s.capture.get (otherCap ch)).speed.natAbs)

/-- Whether the return test holds for a LOST channel (R50). -/
def returnHolds (s : State) (ch : CapCh) : Bool :=
  let r := s.capture.get ch
  r.status == .lost && r.measuring && usable s (otherCap ch) && agree r.speed (s.capture.get (otherCap ch)).speed

/-- The loss and return tests of a channel. -/
def lossReturnTest (ch : CapCh) (s : State) : State :=
  let l := lossHolds s ch
  let r := returnHolds s ch
  onCap ch (fun c => { c with lossT := testTimer l Config.lossMs c.lossT
                              returnT := testTimer r Config.returnMs c.returnT }) s

/-- The SPEED_NONE test (R51). -/
def speedNoneTest (s : State) : State :=
  let none := !usable s .a && !usable s .b
  let was := s.capture.noneBegun
  let s := { s with capture.noneBegun := none }
  if none && !was then reportBegun .speedNone 0 2 s else reportEndedIf (was && !none) .speedNone 0 s

/-- A capture update (R47): S is formed, then the tests are made on the new state. -/
def captureUpdate (s : State) : State :=
  let s := { s with capture.s := combined s }
  speedNoneTest (lossReturnTest .b (lossReturnTest .a (disagreementTest s)))

/-! ## Edges (R42 to R44) -/

/-- An edge that ends a period (R43). -/
def endPeriod (ch : CapCh) (clk prev : Clock) (s : State) : State :=
  let t := max (clk - prev).toNat 1
  let cp := (s.capCfg ch).cp
  captureUpdate (onCap ch (fun r =>
    { r with lastPeriod := some t, speed := signedSpeed r.forward (cp * 1000 / t), measuring := true
             status := r.status.measured, lastEdge := some clk
             mode := if t < 1000 then .count else .period
             count := if t < 1000 then 0 else r.count
             windowT := if t < 1000 then msTimer Config.windowMs else r.windowT }) s)

/-- An edge on a fitted channel (R42 to R44). -/
def edge (ch : CapCh) (dirHigh : Bool) (clk : Clock) (s : State) : State :=
  let s := onCap ch (fun r => { r with forward := dirHigh, standstillT := msTimer Config.standstillMs }) s
  let r := s.capture.get ch
  match r.mode with
  | .count => onCap ch (fun r => { r with count := min (r.count + 1) 65535, lastEdge := some clk }) s
  | .period =>
    match r.lastEdge with
    | none => onCap ch (fun r => { r with lastEdge := some clk }) s
    | some prev => endPeriod ch clk prev s

/-- The channel goes to standstill (R45). -/
def standstillExpired (ch : CapCh) (s : State) : State :=
  captureUpdate (onCap ch (fun r =>
    { r with speed := 0, measuring := false, mode := .period, windowT := none, count := 0, lastEdge := none
             returnT := none, standstillT := none
             status := match r.status with | .lost => .lost | .running | .standstill => .standstill }) s)

/-- Whether a timer runs out before `n` µs have passed. -/
def Timer.endsBefore (t : Timer) (n : Nat) : Bool := t.any fun r => decide (r < n)

/-- PULSE_EDGE: the clock runs on to its reading at the edge. When the channel's standstill time ended before the edge,
the channel is at standstill when the edge comes, so no period longer than 400 ms is measured; [31]. -/
def execPulseEdge (ch : CapCh) (dirHigh : Bool) (clk : Clock) (s : State) : Answer :=
  if s.power = .running then
    let n := (clk - s.clock).toNat
    let late := ((s.capture.get ch).standstillT).endsBefore n
    let s := advance n s
    if (s.capCfg ch).fitted then
      let s := if late then event (standstillExpired ch) s else s
      .next (event (edge ch dirHigh clk) s)
    else .next s
  else .next s

/-- A window ends (R44). -/
def windowExpired (ch : CapCh) (s : State) : State :=
  let cp := (s.capCfg ch).cp
  captureUpdate (onCap ch (fun r =>
    let r := { r with speed := signedSpeed r.forward (r.count * cp / 20), measuring := true,
                      status := r.status.measured }
    if 10 ≤ r.count then { r with count := 0, windowT := msTimer Config.windowMs }
    else { r with count := 0, windowT := none, mode := .period, lastEdge := none }) s)

/-- WINDOW_TIMER_EXPIRY. -/
def execWindowTimerExpiry (ch : CapCh) (s : State) : Answer := expires (s.capture.get ch).windowT (windowExpired ch) s

/-- STANDSTILL_TIMER_EXPIRY. -/
def execStandstillTimerExpiry (ch : CapCh) (s : State) : Answer :=
  expires (s.capture.get ch).standstillT (standstillExpired ch) s

/-- The severity of SPEED_DISAGREE and SPEED_CHANNEL_LOST (R48, R49). -/
def captureSeverity : Fin 4 := 1

/-- The disagreement timer runs out (R48). -/
def disagreementExpired (s : State) : State :=
  reportBegun .speedDisagree 0 captureSeverity
    { s with capture := { s.capture with disagreeT := none, disagreeBegun := true } }

/-- DISAGREEMENT_TIMER_EXPIRY. -/
def execDisagreementTimerExpiry (s : State) : Answer := expires s.capture.disagreeT disagreementExpired s

/-- The loss timer runs out (R49). -/
def lossExpired (ch : CapCh) (s : State) : State :=
  captureUpdate (reportBegun .speedChannelLost (capNumber ch) captureSeverity
    (onCap ch (fun r => { r with lossT := none, status := .lost }) s))

/-- LOSS_TIMER_EXPIRY. -/
def execLossTimerExpiry (ch : CapCh) (s : State) : Answer := expires (s.capture.get ch).lossT (lossExpired ch) s

/-- The return timer runs out (R50). -/
def returnExpired (ch : CapCh) (s : State) : State :=
  captureUpdate (reportEnded .speedChannelLost (capNumber ch)
    (onCap ch (fun r => { r with returnT := none, status := .running }) s))

/-- RETURN_TIMER_EXPIRY. -/
def execReturnTimerExpiry (ch : CapCh) (s : State) : Answer := expires (s.capture.get ch).returnT (returnExpired ch) s

/-- An accepted COMMIT of DRIVE_CONFIG, or a RECALL, resets both channels and the combination (R40); [33]. The ends act on
records kept over a restart too; [40]. -/
def resetCapture (s : State) : State :=
  let s := { s with capture := { Capture.restarted with noneBegun := s.capture.noneBegun } }
  captureUpdate (reportEnded .speedChannelLost 1 (reportEnded .speedChannelLost 0 (reportEnded .speedDisagree 0 s)))

end Sys2Proof.Machine
end

