-- ==== Sys2Proof/Machine/Governor.lean ====
section
/-! DEFINITION. The profile selector (04 R58 to R63) and the travel governor (05): one governor period in its stages. -/

namespace Sys2Proof.Machine

/-- Change the governor record. -/
def onGov (f : Gov → Gov) (s : State) : State := { s with gov := f s.gov }

/-! ## Profile requests, switches and the motor stroke (04 sections 4.4, 4.5) -/

/-- The pending profile after a reading of PROFILE_REQUEST (R58). -/
def pendingAfter (active : Fin 4) (r : Reading) (pending : Option (Fin 4)) : Option (Fin 4) :=
  if !r.fresh then none
  else if 0 ≤ r.value then
    match fin? 4 r.value.toNat with
    | some p => if p = active then none else some p
    | none => pending
  else pending

/-- Whether a pending profile may be switched to (R60). -/
def maySwitch (s : State) (p : Fin 4) : Bool :=
  let ceilingOk := decide (s.absSpeed ≤ s.tables.profiles[p].ceiling)
  match s.profile.kind, s.tables.profiles[p].kind with
  | .work, .work => decide (s.faults.level ≤ 1)
  | .work, .transport =>
    (allArms.all fun a => (s.arms.get a).state == .stowed) && decide (s.absSpeed ≤ Config.stowedSwitchSpeed)
  | .transport, _ => ceilingOk

/-- A profile switch (R61). -/
def switchProfile (p : Fin 4) (s : State) : State :=
  onGov (fun g => { g with cruise := none }) { s with selector := { active := p, pending := none } }

/-- The selector's work at a governor period expiry (R58, R59). -/
def selectorStage (s : State) : State :=
  let pending := pendingAfter s.selector.active (s.role .profileRequest) s.selector.pending
  let s := { s with selector.pending := pending }
  match pending with
  | some p => if maySwitch s p then switchProfile p s else s
  | none => s

/-- One step of the motor stroke ramp (R63). -/
def motorToward (target m : Nat) : Nat :=
  if m < target then min (m + Config.motorStep) target else if target < m then max (m - Config.motorStep) target else m

/-- The motor stroke ramp. -/
def motorStage (s : State) : State := onGov (fun g => { g with motor := motorToward s.profile.motor g.motor }) s

/-! ## Inputs (R67) -/

/-- What PEDAL demands against the deadband. -/
inductive Demand where
  | neutral | forward | reverse
deriving DecidableEq, Repr

/-- The demand of a pedal value. -/
def demandOf (deadband : Nat) (pedal : Int) : Demand :=
  if (deadband : Int) < pedal then .forward else if pedal < -(deadband : Int) then .reverse else .neutral

/-- What one governor period reads. -/
structure GovIn where
  pedal : Int
  parkEngaged : Bool
  n : Int
  cruiseSet : Reading
  cruiseCancel : Int
  absS : Nat
  level : Fin 4
  cause : Bool
  profile : Profile
  curve : Curve
  motor : Nat
  gk : Nat
  kp : Nat
  ki : Nat
  imax : Nat
deriving DecidableEq, Repr

/-- The inputs of the moment. `cause` is a cause of R68: level 3, an open session or the shutdown hold. -/
def govInputs (s : State) : GovIn :=
  { pedal := (s.role .pedal).value, parkEngaged := s.parkEngaged, n := (s.role .engineSpeed).value
    cruiseSet := s.role .cruiseSet, cruiseCancel := (s.role .cruiseCancel).value, absS := s.absSpeed
    level := s.faults.level, cause := s.faults.level == 3 || s.service.session || s.shutdown.hold
    profile := s.profile, curve := s.tables.curves[s.profile.speedCurve], motor := s.gov.motor
    gk := s.tables.drive.gk, kp := s.tables.drive.kp, ki := s.tables.drive.ki, imax := s.tables.drive.imax }

/-- The demand of the period. -/
def GovIn.demand (i : GovIn) : Demand := demandOf i.profile.deadband i.pedal

/-- The engine is below the minimum speed. -/
def GovIn.engineLow (i : GovIn) : Bool := decide (i.n < Config.engineMinimum)

/-- The machine is at standstill. -/
def GovIn.atRest (i : GovIn) : Bool := decide (i.absS ≤ Config.standstillSpeed)

/-- A reversal demand (R74). -/
def reversal (st : GovState) (d : Demand) : Bool :=
  match st, d with
  | .forward, .reverse | .reverse, .forward => true
  | .forward, _ | .reverse, _ | .neutral, _ | .stopping, _ | .held, _ => false

/-- The state travels: FORWARD or REVERSE. -/
def GovState.travels : GovState → Bool
  | .forward | .reverse => true
  | .neutral | .stopping | .held => false

/-- The state runs the period computation (05 section 5.6). -/
def GovState.computes : GovState → Bool
  | .forward | .reverse | .stopping => true
  | .neutral | .held => false

/-! ## Stage 2: weighing the state (R68 to R72) -/

/-- The governor record in NEUTRAL. -/
def Gov.neutral (g : Gov) : Gov :=
  { g with state := .neutral, dir := 0, v := 0, p := 0, i := 0, mark := .none, cruise := none, engineLow := false }

/-- The governor enters NEUTRAL, where ENGINE_LOW ends (R85); [46]. -/
def enterNeutral (s : State) : State := reportEndedIf s.gov.engineLow .engineLow 0 (onGov Gov.neutral s)

/-- The start conditions of R69. -/
def GovIn.starts (i : GovIn) (lock : Bool) : Bool :=
  i.demand != .neutral && !i.parkEngaged && !i.engineLow && !lock && decide (i.level ≤ 1)

/-- The stopping conditions of R70. -/
def GovIn.stops (i : GovIn) : Bool := i.level == 2 || i.parkEngaged || i.engineLow

/-- The conditions of R72 for leaving HELD. -/
def GovIn.leavesHeld (i : GovIn) (lock : Bool) : Bool :=
  !i.cause && decide (i.level ≤ 1) && i.atRest && i.demand == .neutral && !lock

/-- Travel begins in the demanded direction (R69). -/
def startTravel (d : Demand) (s : State) : State :=
  onGov (fun g =>
    match d with
    | .forward => { g with state := .forward, dir := 1 }
    | .reverse => { g with state := .reverse, dir := -1 }
    | .neutral => g) s

/-- A controlled stop begins (R70); ENGINE_LOW begins when the engine is low (R85). -/
def beginStop (i : GovIn) (s : State) : State :=
  let s := onGov (fun g => { g with state := .stopping, cruise := none }) s
  if i.engineLow then reportBegun .engineLow 0 1 (onGov (fun g => { g with engineLow := true }) s) else s

/-- Stage 2 of a period. -/
def weighState (i : GovIn) (s : State) : State :=
  if i.cause then enterHeld s
  else
    match s.gov.state with
    | .neutral =>
      if i.level = 2 then enterHeld s
      else if i.starts s.gov.lock then startTravel i.demand s else enterNeutral s
    | .forward | .reverse => if i.stops then beginStop i s else s
    | .stopping => s
    | .held => if i.leavesHeld s.gov.lock then enterNeutral s else enterHeld s

/-! ## Stage 3: cruise (R76, R77) -/

/-- Cruise is disengaged in FORWARD (R77). -/
def GovIn.endsCruise (i : GovIn) (st : GovState) : Bool :=
  i.cruiseCancel != 0 || reversal st i.demand || decide (1 ≤ i.level)

/-- Cruise is engaged in FORWARD (R76). -/
def GovIn.engagesCruise (i : GovIn) (g : Gov) : Bool :=
  i.cruiseSet.fresh && i.cruiseSet.value != 0 && g.rememberedSet == some 0 && i.profile.cruiseAllowed
  && i.level == 0 && decide (300 ≤ g.v) && !reversal g.state i.demand && i.cruiseCancel == 0

/-- The cruise stage on the governor record. -/
def cruiseStage (i : GovIn) (g : Gov) : Gov :=
  { g with cruise := if g.state ≠ .forward then none
                     else if i.engagesCruise g then some g.v
                     else if i.endsCruise g.state then none else g.cruise
           rememberedSet := some i.cruiseSet.value }

/-! ## Stage 4: the period computation (R78 to R84) -/

/-- The engine speed of the feedforward (R78). -/
def GovIn.nf (i : GovIn) (st : GovState) : Nat :=
  if st = .stopping then max i.n.toNat Config.engineMinimum else i.n.toNat

/-- The full-stroke speed Vfull (R78). -/
def GovIn.vfull (i : GovIn) (st : GovState) : Nat := i.nf st * i.gk / i.motor

/-- The stroke-limited ceiling (R78). -/
def GovIn.strokeCeiling (i : GovIn) (st : GovState) : Nat := i.vfull st * i.profile.cap / 1000

/-- The requested speed Tc (R79). -/
def GovIn.requested (i : GovIn) : Nat :=
  i.curve.eval (if i.pedal.natAbs ≤ i.profile.deadband then 0 else i.pedal.natAbs)

/-- The target speed T (R80). -/
def GovIn.target (i : GovIn) (g : Gov) : Nat :=
  if g.state = .stopping ∨ reversal g.state i.demand = true then 0
  else
    let t := match g.cruise with
      | some c => max c i.requested
      | none => i.requested
    let t := min t (min i.profile.ceiling (i.strokeCeiling g.state))
    if i.level = 1 then min t Config.limpCeiling else t

/-- A value moves toward another by steps up and down. -/
def rampToward (up down target v : Nat) : Nat :=
  if v < target then min (v + up) target else if target < v then max (v - down) target else v

/-- The commanded speed after the ramp (R71, R81). -/
def GovIn.ramp (i : GovIn) (g : Gov) (t : Nat) : Nat :=
  if g.state = .stopping then g.v - Config.stopStep else rampToward i.profile.aUp i.profile.aDn t g.v

/-- The integral after its step and clamp (R83). -/
def GovIn.integral (i : GovIn) (g : Gov) (e : Int) : Int :=
  let held := (g.mark = .high ∧ 0 < e) ∨ (g.mark = .low ∧ e < 0)
  clampInt (-(1000 * i.imax : Nat)) (1000 * i.imax : Nat) (if held then g.i else g.i + e * i.ki)

/-- The sum U of feedforward, proportional part and integral contribution (R82 to R84). -/
def GovIn.sum (i : GovIn) (st : GovState) (v : Nat) (e integral : Int) : Int :=
  (v * 1000 / i.vfull st : Nat) + Int.tdiv (e * i.kp) 1000 + Int.tdiv integral 1000

/-- The output mark (R84). -/
def outputMark (cap : Nat) (u : Int) : Mark := if u ≥ cap ∧ 0 < u then .high else if u ≤ 0 then .low else .none

/-- The period computation on the governor record (R78 to R84). -/
def compute (i : GovIn) (g : Gov) : Gov :=
  let t := i.target g
  let v := i.ramp g t
  if t = 0 ∧ v = 0 then { g with v := 0, p := 0, i := 0, mark := .none }
  else
    let e : Int := v - i.absS
    let integral := i.integral g e
    let u := i.sum g.state v e integral
    { g with v := v, i := integral, mark := outputMark i.profile.cap u,
             p := g.dir * clampInt 0 i.profile.cap u }

/-! ## Stages 5 and 6 (R71, R75, R85, R86) -/

/-- The end of a stop or of travel (R71, R75). -/
def endStage (i : GovIn) (s : State) : State :=
  if s.gov.v = 0 ∧ i.atRest = true then
    match s.gov.state with
    | .stopping => if 2 ≤ i.level then enterHeld s else enterNeutral s
    | .forward | .reverse =>
      if (i.demand = .neutral ∨ reversal s.gov.state i.demand = true) ∧ s.gov.cruise = none then enterNeutral s else s
    | .neutral | .held => s
  else s

/-- ENGINE_LOW, when it has begun since the restart [46], ends at the first later period with the engine at or above the
minimum (R85). -/
def engineWatch (i : GovIn) (s : State) : State :=
  if s.gov.engineLow && !i.engineLow then reportEnded .engineLow 0 (onGov (fun g => { g with engineLow := false }) s)
  else s

/-- OVERSPEED begins (R86). -/
def overspeedBegins (s : State) : State := reportBegun .overspeed 0 2 (onGov (fun g => { g with overspeed := true }) s)

/-- The overspeed limit (05 section 5.1). -/
def Profile.overspeedLimit (p : Profile) : Nat := p.ceiling * 12 / 10

/-- The overspeed watch (R86). The end is reported when the condition has begun since the restart; [46]. -/
def overspeedWatch (i : GovIn) (s : State) : State :=
  if i.profile.overspeedLimit < i.absS then
    let s := onGov (fun g => { g with overspeedMs := min (g.overspeedMs + Config.governorPeriodMs) Config.overspeedMs }) s
    if s.gov.overspeedMs = Config.overspeedMs ∧ s.gov.overspeed = false then overspeedBegins s else s
  else
    let was := s.gov.overspeed
    reportEndedIf was .overspeed 0 (onGov (fun g => { g with overspeedMs := 0, overspeed := false }) s)

/-- The restart lock is set at a period that reads level 2 or 3 (R73). -/
def lockStage (i : GovIn) (s : State) : State := onGov (fun g => { g with lock := g.lock || decide (2 ≤ i.level) }) s

/-- The governor's own work in a period, on the inputs it read (stages 1 to 6). -/
def governorStages (i : GovIn) (s : State) : State :=
  let s := weighState i (lockStage i s)
  let s := onGov (cruiseStage i) s
  let s := if s.gov.state.computes then onGov (compute i) s else s
  overspeedWatch i (engineWatch i (endStage i s))

/-- One governor period expiry (05 section 5.2): selector, motor stroke ramp, stages, and the completion that triggers
GOVERNOR channels (R87). -/
def governorBody (s : State) : State :=
  let s := motorStage (selectorStage (onGov (fun g => { g with timer := msTimer Config.governorPeriodMs }) s))
  { governorStages (govInputs s) s with ev.period := some .governor }

/-- GOVERNOR_PERIOD. -/
def execGovernorPeriod (s : State) : Answer := expires s.gov.timer governorBody s

/-- OVERSPEED_TIME_LIMIT alone (R86): the overspeed time stands at its limit and OVERSPEED has not begun; [25]. -/
def execOverspeedTimeLimit (s : State) : Answer :=
  happens (s.gov.overspeedMs == Config.overspeedMs && !s.gov.overspeed) overspeedBegins s

end Sys2Proof.Machine
end

