-- ==== Sys2Proof/Machine/Arms.lean ====
section
/-! DEFINITION. The arm sequencer (06): one arm period in its stages, the grant of the lift circuit, and the expiries of
motion, float and wait timers. Nothing an arm period changes is among the inputs it reads, so each stage reads them from
the state it is given (R90). -/

namespace Sys2Proof.Machine

/-- The parameters of an arm in the active profile. -/
def State.armParams (s : State) (a : Arm) : ArmParams := s.profile.arms.get a

/-! ## Desired positions (R91) -/

/-- The request of an arm keeps its obstruction hold: fresh and nonzero. -/
def requested (s : State) (a : Arm) : Bool :=
  let r := s.role (.armRequest a)
  r.fresh && r.value != 0

/-- The arm is lifted by reverse travel. -/
def reverseLift (s : State) (a : Arm) : Bool := a != .mb && s.gov.state == .reverse && s.profile.liftReverse

/-- The desired position is DOWN, with the obstruction hold as it stands. -/
def desiresDown (s : State) (a : Arm) : Bool :=
  requested s a && s.profile.kind == .work && !s.service.session && decide (s.faults.level < 2) && !reverseLift s a
  && !(s.arms.get a).obstructed

/-- The obstruction hold is cleared when the request reads 0 or is not fresh, and ARM_OBSTRUCTED ends if it is active;
[40]. -/
def clearObstruction (a : Arm) (s : State) : State :=
  let r := s.arms.get a
  if !requested s a then
    reportEnded .armObstructed (armNumber a) { s with arms := s.arms.set a { r with obstructed := false } }
  else s

/-- The desired position is derived and recorded. -/
def deriveDesired (a : Arm) (s : State) : State :=
  let s := clearObstruction a s
  let d := desiresDown s a
  { s with arms := s.arms.set a { s.arms.get a with desiredDown := d } }

/-! ## Transitions (R92 to R94, R98, R101) -/

/-- The arm's position reads fresh and at or below its stow position. -/
def atStow (s : State) (a : Arm) : Bool :=
  let p := s.role (.armPosition a)
  p.fresh && decide (p.value ≤ (s.armCfg a).stow)

/-- The arm's position reads fresh and at or above its work position. -/
def atWork (s : State) (a : Arm) : Bool :=
  let p := s.role (.armPosition a)
  p.fresh && decide ((s.armCfg a).work ≤ p.value)

/-- An arm takes a state. -/
def enterState (a : Arm) (st : ArmState) (s : State) : State := putArm a { s.arms.get a with state := st } s

/-- An arm joins the queue when the joining rule lets it (R96). -/
def tryJoin (a : Arm) (up : Bool) (origin : WaitOrigin) (s : State) : State :=
  if mayJoin s s.faults.level then join a up origin s else s

/-- An arm leaves the queue into a state of rest (R94). -/
def turnBack (a : Arm) (st : ArmState) (s : State) : State := enterState a st (leaveQueue a s)

/-- An arm in the queue changes its wait kind, from height MIDWAY, and is placed again; its wait timer runs on (R94). -/
def changeWait (a : Arm) (up : Bool) (s : State) : State :=
  let q := queueInsert s.arms up a (s.lift.queue.erase a)
  let s := { s with lift.queue := q }
  putArm a { s.arms.get a with state := if up then .waitUp else .waitDown, origin := .midway } s

/-- The holder's motion ends in a state of rest (R98). -/
def endMotion (a : Arm) (st : ArmState) (s : State) : State :=
  putArm a { s.arms.get a with state := st, valve := 0, motionT := none } { s with lift.holder := none }

/-- A WORKING arm enters FLOAT when its deflection is above its on threshold (R101). -/
def enterFloat (a : Arm) (s : State) : State :=
  let d := s.role (.armDeflection a)
  let c := s.armCfg a
  if d.fresh ∧ (c.deflOn : Int) < d.value then
    putArm a { s.arms.get a with state := .float, floatT := msTimer c.floatLimit } s
  else s

/-- A FLOAT arm enters WORKING when its deflection is below its off threshold (R101). -/
def leaveFloat (a : Arm) (s : State) : State :=
  let d := s.role (.armDeflection a)
  if d.fresh ∧ d.value < ((s.armCfg a).deflOff : Int) then
    putArm a { s.arms.get a with state := .working, floatT := none } s
  else s

/-- An arm on the road: it joins to lift when it should be UP and may join, else its deflection is weighed (R93, R101). -/
def onRoad (a : Arm) (weigh : Arm → State → State) (s : State) : State :=
  if !(s.arms.get a).desiredDown && mayJoin s s.faults.level then join a true .working s else weigh a s

/-- A WAIT_DOWN arm that should be UP (R94). -/
def turnUp (a : Arm) (s : State) : State :=
  match (s.arms.get a).origin with
  | .stowed => turnBack a .stowed s
  | .midway | .working => if atStow s a then turnBack a .stowed s else changeWait a true s

/-- A WAIT_UP arm that should be DOWN (R94). -/
def turnDown (a : Arm) (s : State) : State :=
  match (s.arms.get a).origin with
  | .working => turnBack a .working s
  | .midway | .stowed => if atWork s a then turnBack a .working s else changeWait a false s

/-- An arm in INIT (R92). -/
def leaveInit (a : Arm) (s : State) : State :=
  if (s.role (.armPosition a)).fresh then
    if atStow s a then enterState a .stowed s else tryJoin a true .midway s
  else s

/-- The one transition an arm takes at a period, from the state it is in; [9]. -/
def transition (a : Arm) (s : State) : State :=
  let r := s.arms.get a
  match r.state with
  | .init => leaveInit a s
  | .stowed => if r.desiredDown then tryJoin a false .stowed s else s
  | .waitDown => if r.desiredDown then s else turnUp a s
  | .waitUp => if r.desiredDown then turnDown a s else s
  | .lowering => if atWork s a then endMotion a .working s else s
  | .lifting => if atStow s a then endMotion a .stowed s else s
  | .working => onRoad a enterFloat s
  | .float => onRoad a leaveFloat s
  | .frozen => rejoinArm s a
  | .faulted => s

/-- An arm reads its configuration anew (06 R88). -/
def readCfg (a : Arm) (s : State) : State :=
  { s with arms := s.arms.set a { s.arms.get a with read := s.armCfg a } }

/-- Stage 1 for one arm: an unfitted arm takes none. -/
def armStage (s : State) (a : Arm) : State :=
  let s := readCfg a s
  if (s.armCfg a).fitted then transition a (deriveDesired a s) else s

/-! ## The grant (R95) -/

/-- Whether a grant may be made. -/
def mayGrant (s : State) : Bool :=
  s.lift.holder.isNone && decide (s.faults.level < 3) && !s.shutdown.hold
  && decide ((Config.engineMinimum : Int) ≤ (s.role .engineSpeed).value)
  && decide (s.tables.arms.liftFlow ≤ s.alloc.fav)

/-- The arm at the head of the queue is granted the circuit, with the commands and limits it read at its last period,
which is this one or, at a motion timer expiry, the one before a COMMIT (R88); the lift flow is the working one; [39]. -/
def grantTo (a : Arm) (s : State) : State :=
  let s := leaveQueue a s
  let r := s.arms.get a
  let c := r.read
  let up := r.state == .waitUp
  putArm a { r with state := if up then .lifting else .lowering, valve := if up then c.lift else c.lower,
                    motionT := msTimer c.motionLimit }
    { s with lift.holder := some a }

/-- A grant is weighed. -/
def weighGrant (s : State) : State :=
  match s.lift.queue with
  | [] => s
  | a :: _ => if mayGrant s then grantTo a s else s

/-! ## Commands (R103) -/

/-- The valve command of a state (06 section 6.2). -/
def valveOf (c : ArmCfg) : ArmState → Int
  | .lowering => c.lower
  | .lifting => c.lift
  | .init | .stowed | .waitDown | .working | .float | .waitUp | .frozen | .faulted => 0

/-- The brush rpm (unscaled) of an arm. -/
def brushRpm (s : State) (a : Arm) : Nat :=
  if (s.arms.get a).state.turning then s.tables.curves[(s.armParams a).curve].eval s.absSpeed else 0

/-- Stage 3 for one arm: its commands for the state it is in; the scaled rpm is never above the unscaled one. -/
def commandStage (s : State) (a : Arm) : State :=
  let r := s.arms.get a
  let rpm := brushRpm s a
  let pressure := if r.state = .working then (s.armParams a).pressure else 0
  { s with arms := s.arms.set a { r with valve := valveOf (s.armCfg a) r.state, pressure := pressure, rpm := rpm,
                                         scaled := min r.scaled rpm } }

/-! ## Commands of the table -/

/-- One arm period expiry (R90). -/
def armPeriodBody (s : State) : State :=
  let s := { s with lift.timer := msTimer Config.armPeriodMs }
  let s := weighGrant (allArms.foldl armStage s)
  let s := banksFollowArms (allArms.foldl commandStage s)
  { s with ev.period := some .armPeriod }

/-- ARM_PERIOD. -/
def execArmPeriod (s : State) : Answer := expires s.lift.timer armPeriodBody s

/-- The severity of ARM_STUCK (R99). -/
def armStuckSeverity : Fin 4 := 2

/-- The motion timer of the holder runs out (R99). -/
def motionExpired (a : Arm) (s : State) : State :=
  let r := s.arms.get a
  let s := putArm a { r with state := .faulted, valve := 0, motionT := none } { s with lift.holder := none }
  weighGrant (banksFollowArms (reportOnce .armStuck (armNumber a) armStuckSeverity s))

/-- MOTION_TIMER_EXPIRY. -/
def execMotionTimerExpiry (a : Arm) (s : State) : Answer := expires (s.arms.get a).motionT (motionExpired a) s

/-- The float timer of an arm runs out (R102). -/
def floatExpired (a : Arm) (s : State) : State :=
  let r := s.arms.get a
  reportBegun .armObstructed (armNumber a) 0
    { s with arms := s.arms.set a { r with floatT := none, obstructed := true } }

/-- FLOAT_TIMER_EXPIRY. -/
def execFloatTimerExpiry (a : Arm) (s : State) : Answer := expires (s.arms.get a).floatT (floatExpired a) s

/-- The wait timer of an arm runs out (R97). -/
def waitExpired (a : Arm) (s : State) : State :=
  let r := s.arms.get a
  reportBegun .liftStarved (armNumber a) 0 { s with arms := s.arms.set a { r with waitT := none, starved := true } }

/-- WAIT_TIMER_EXPIRY. -/
def execWaitTimerExpiry (a : Arm) (s : State) : Answer := expires (s.arms.get a).waitT (waitExpired a) s

/-! ## Changed fitted flags (R88) -/

/-- An arm becomes unfitted: out of the circuit, STOWED, commands 0, timers stopped, hold clear, its conditions ended
if they are active, those kept over a restart included. -/
def unfitArm (a : Arm) (s : State) : State :=
  let s := leaveQueue a s
  let r := s.arms.get a
  let holder := if s.lift.holder = some a then none else s.lift.holder
  let s := { s with lift.holder := holder }
  reportEnded .armObstructed (armNumber a) (reportEnded .liftStarved (armNumber a)
    (putArm a { r with state := .stowed, valve := 0, pressure := 0, rpm := 0, scaled := 0, motionT := none,
                       floatT := none, waitT := none, obstructed := false } s))

/-- An arm becomes fitted: INIT with commands 0. -/
def fitArm (a : Arm) (s : State) : State :=
  putArm a { s.arms.get a with state := .init, valve := 0, pressure := 0, rpm := 0, scaled := 0 } s

/-- The arms whose fitted flag a new ARM_CONFIG changes act on it, `old` being the configuration before. -/
def actOnFitted (old : ArmConfig) (s : State) : State :=
  banksFollowArms (allArms.foldl (fun s a =>
    match (old.arms.get a).fitted, (s.armCfg a).fitted with
    | true, false => unfitArm a s
    | false, true => fitArm a s
    | true, true | false, false => s) s)

end Sys2Proof.Machine
end

