-- ==== Sys2Proof/Machine/Allocator.lean ====
section
/-! DEFINITION. The flow allocator (07): available flow, lift reservation, rotation demand, scale factor and trim, scaled
brush speeds, and the engine request. -/

namespace Sys2Proof.Machine

/-- The flow of a displacement in tenths of ml per revolution at a speed in rpm, ml/s (07, introduction). -/
def flowOf (rpm displacement : Nat) : Nat := rpm * displacement / 600

/-- The engine speed for the allocator's arithmetic: 0 to 20,000 rpm (R111). -/
def allocatorSpeed (s : State) : Nat := (clampInt 0 20000 (s.role .engineSpeed).value).toNat

/-- The available flow (R112). -/
def availableFlow (s : State) : Nat := flowOf (allocatorSpeed s) s.tables.drive.dimp

/-- The lift reservation (R113). -/
def reservation (s : State) : Nat := if s.lift.holder.isSome then s.tables.arms.liftFlow else 0

/-- The unscaled brush speed of an arm that turns, 0 for every other arm (R111). -/
def turningRpm (s : State) (a : Arm) : Nat :=
  let r := s.arms.get a
  if r.state.turning then r.rpm else 0

/-- A sum over the three arms. -/
def armSum (f : Arm → Nat) : Nat := f .sl + f .sr + f .mb

/-- The rotation demand Q (R114). -/
def rotationDemand (s : State) : Nat := armSum fun a => flowOf (turningRpm s a) (s.armCfg a).dm

/-- A brush speed under a scale factor (R115). -/
def scaledRpm (s : State) (k : Nat) (a : Arm) : Nat := turningRpm s a * k / 1000

/-- The sum of the allotted rotation flows under a scale factor (R115). -/
def allotted (s : State) (k : Nat) : Nat := armSum fun a => flowOf (scaledRpm s k a) (s.armCfg a).dm

/-- The trim: the scale factor is lowered until the allotted flows fit (R115). -/
def trim (s : State) (r : Nat) : Nat → Nat
  | 0 => 0
  | k + 1 => if allotted s (k + 1) ≤ r then k + 1 else trim s r k

/-- The scale factor before the trim (R115). With no flow left and no demand it is 1,000, as R115 has it; [47]. -/
def scaleFactor (r q : Nat) : Nat := if q ≤ r then 1000 else r * 1000 / q

/-- The engine request (R117). -/
def engineRequest (s : State) (q res : Nat) : Nat :=
  let turning := allArms.any fun a => (s.arms.get a).state.turning
  if s.profile.raiseAllowed && (turning || s.lift.holder.isSome) then
    min (divUp ((q + res) * 600) s.tables.drive.dimp) s.profile.requestMax
  else 0

/-- Write the scaled brush speeds into the arm records (R116). -/
def writeScaled (k : Nat) (s : State) : State :=
  { s with arms := ⟨{ s.arms.sl with scaled := scaledRpm s k .sl }, { s.arms.sr with scaled := scaledRpm s k .sr },
                    { s.arms.mb with scaled := scaledRpm s k .mb }⟩ }

/-- One allocator period expiry (R111 to R118). -/
def allocatorBody (s : State) : State :=
  let fav := availableFlow s
  let res := reservation s
  let r := fav - res
  let q := rotationDemand s
  let k := trim s r (scaleFactor r q)
  let s := writeScaled k { s with alloc := { fav := fav, request := engineRequest s q res
                                             timer := msTimer Config.allocatorPeriodMs } }
  { s with ev.period := some .allocator }

/-- ALLOCATOR_PERIOD. -/
def execAllocatorPeriod (s : State) : Answer := expires s.alloc.timer allocatorBody s

end Sys2Proof.Machine
end

