-- ==== Sys2Proof/Machine/Spray.lean ====
section
/-! DEFINITION. The spray doser (08): tank checks, speed condition and linger, banks, flows and duty, volume. -/

namespace Sys2Proof.Machine

/-- Change the doser record. -/
def onSpray (f : Spray → Spray) (s : State) : State := { s with spray := f s.spray }

/-! ## Tank checks (R128, R129) -/

/-- The low check (R128). A kept TANK_LOW is not ended by a reading of 150 or above; [43]. -/
def lowCheck (s : State) : State :=
  let t := s.role .tankLevel
  if t.fresh then
    if s.spray.lowArmed then
      if t.value < Config.tankLowLevel then
        reportBegun .tankLow 0 0 (onSpray (fun p => { p with lowArmed := false, tankLow := true }) s)
      else s
    else if Config.tankRefillLevel < t.value then
      let was := s.spray.tankLow
      reportEndedIf was .tankLow 0 (onSpray (fun p => { p with lowArmed := true, tankLow := false }) s)
    else s
  else s

/-- DRY after its judgement at a period, and whether the first reading is still pending (R129). -/
def dryAfter (t : Reading) (p : Spray) : Bool × Bool :=
  if p.firstPending then if t.fresh then (decide (t.value < Config.tankDryLevel), false) else (true, true)
  else if p.dry then (!(t.fresh && decide (Config.tankRefillLevel < t.value)), false)
  else (!t.fresh || decide (t.value < Config.tankDryLevel), false)

/-- DRY is judged and SPRAY_DRY follows it (R129). A kept SPRAY_DRY is not ended by a first reading that clears DRY;
[43]. -/
def dryCheck (s : State) : State :=
  let (dry, first) := dryAfter (s.role .tankLevel) s.spray
  let was := s.spray.sprayDry
  let s := onSpray (fun p => { p with dry := dry, firstPending := first, sprayDry := dry }) s
  if dry && !was then reportBegun .sprayDry 0 0 s else reportEndedIf (was && !dry) .sprayDry 0 s

/-! ## Speed condition and linger (R130) -/

/-- The linger ends. -/
def endLinger (p : Spray) : Spray := { p with linger := false }

/-- The doser after the speed condition is judged, and whether it holds; [35]. -/
def speedCondition (cfg : SprayConfig) (absS : Nat) (p : Spray) : Bool × Spray :=
  if cfg.minSpeed ≤ absS then (true, { p with above := true, linger := false, belowMs := 0 })
  else if p.above then
    (decide (0 < cfg.linger), { p with above := false, linger := decide (0 < cfg.linger), belowMs := 0 })
  else if p.linger then
    let t := p.belowMs + Config.sprayPeriodMs
    if t < cfg.linger then (true, { p with belowMs := t }) else (false, endLinger { p with belowMs := t })
  else (false, p)

/-! ## Banks, flows, duty and volume (R131 to R135) -/

/-- Whether the bank of an arm is open after stage 4 (R131). -/
def bankOpens (s : State) (speed : Bool) (a : Arm) : Bool :=
  let w := s.role .spraySwitch
  (s.arms.get a).state.turning && decide (s.faults.level ≤ 1) && w.fresh && w.value != 0 && !s.spray.dry
  && decide (0 < (s.armParams a).dose) && speed

/-- A bank after stages 4 and 5 (R131, R133). -/
def bankAfter (s : State) (speed : Bool) (a : Arm) : Bank :=
  if bankOpens s speed a then ⟨true, (s.armParams a).dose * s.absSpeed / 1000⟩ else ⟨false, 0⟩

/-- The volume accumulator after a period of a total flow (R135). -/
def volumeAfter (q v : Nat) : Nat := min (v + q * Config.sprayPeriodMs) Config.volumeMax

/-- Stages 4 to 6. -/
def doseStage (speed : Bool) (s : State) : State :=
  let banks : PerArm Bank := ⟨bankAfter s speed .sl, bankAfter s speed .sr, bankAfter s speed .mb⟩
  let q := totalFlow banks
  onSpray (fun p => { p with banks := banks, q := q, duty := pumpDuty s.tables.spray (anyOpen banks) q,
                             volume := volumeAfter q p.volume }) s

/-- One spray period expiry (R127). -/
def sprayBody (s : State) : State :=
  let s := dryCheck (lowCheck (onSpray (fun p => { p with timer := msTimer Config.sprayPeriodMs }) s))
  let (speed, p) := speedCondition s.tables.spray s.absSpeed s.spray
  let s := doseStage speed { s with spray := p }
  { s with ev.period := some .spray }

/-- SPRAY_PERIOD. -/
def execSprayPeriod (s : State) : Answer := expires s.spray.timer sprayBody s

/-- LINGER_END alone (R130): the below-speed time stands at the linger time or more; [25]. -/
def execLingerEnd (s : State) : Answer :=
  happens (s.spray.linger && decide (s.tables.spray.linger ≤ s.spray.belowMs)) (onSpray endLinger) s

end Sys2Proof.Machine
end

