-- ==== Sys2Proof/Machine/Channels.lean ====
section
/-! DEFINITION. The commands of the send channels alone (09): the interval timer and the completion of a send; and the
channel control actions (R155). -/

namespace Sys2Proof.Machine

/-- The interval timer of a channel started with its parameter; stopped for another source. -/
def ChannelCfg.fullTimer (c : ChannelCfg) : Timer := if c.source = .interval then msTimer c.param else none

/-- The interval timer of a channel runs out: it is reloaded and the channel triggered (R147). The trigger is the whole
event, so nothing else changes before it. -/
def intervalExpired (ch : Fin 6) (s : State) : State :=
  let cfg := s.chanCfg ch
  giveTrigger ch (onChan ch (fun c => { c with timer := cfg.fullTimer }) s)

/-- INTERVAL_TIMER_EXPIRY. -/
def execIntervalTimerExpiry (ch : Fin 6) (s : State) : Answer := expires (s.chan ch).timer (intervalExpired ch) s

/-- SEND_COMPLETION alone (R152): the send's last frame has been placed or counted and no record is out; [25]. -/
def execSendCompletion (ch : Fin 6) (s : State) : Answer := happens (sendComplete ch s) (completeIfDone ch) s

/-- A channel in a send is stop-marked. -/
def stopIfBusy (c : ChanRun) : ChanRun := { c with stop := if c.state = .idle then c.stop else true }

/-- Action Enable (R155). -/
def enableChannel (ch : Fin 6) (s : State) : State :=
  let cfg := s.chanCfg ch
  onChan ch (fun c => stopIfBusy { c with enable := true, done := false, remaining := cfg.reload,
                                          position := cfg.runStart,
                                          timer := if cfg.source = .interval then msTimer cfg.param else c.timer }) s

/-- Action Disable (R155). -/
def disableChannel (ch : Fin 6) (s : State) : State :=
  onChan ch (fun c => stopIfBusy { c with enable := false, pending := false }) s

/-- A channel as an accepted COMMIT or a RECALL sets it (R145, R146): one in a send keeps its state and records out and
is stop-marked. -/
def recalledChannel (cfg : ChannelCfg) (c : ChanRun) : ChanRun :=
  if c.state = .idle then ChanRun.restarted cfg
  else { ChanRun.restarted cfg with state := c.state, out := c.out, awaited := c.awaited, stop := true }

end Sys2Proof.Machine
end

