-- ==== Sys2Proof/Machine/Cutoff.lean ====
section
/-! DEFINITION. The cut-off latch (10 section 10.5) and the detection times of kept conditions (10 R166). -/

namespace Sys2Proof.Machine

/-- The latch is set and CUTOFF begins (R162). -/
def setLatch (s : State) : State := reportBegun .cutoff 0 3 { s with faults := { s.faults with latch := true } }

/-- The pedal reads within the deadband (R163). -/
def pedalNeutral (s : State) : Bool :=
  let p := s.role .pedal
  !p.fresh || decide (p.value.natAbs ≤ s.profile.deadband)

/-- The latch is cleared and CUTOFF ends (R163). -/
def releaseLatch (s : State) : State :=
  reportEnded .cutoff 0 { s with faults := { s.faults with latch := false, releaseT := none } }

/-- Release is weighed; when it is not given the release timer runs on for another 10 ms (R163). -/
def weighRelease (s : State) : State :=
  if pedalNeutral s then releaseLatch s
  else { s with faults := { s.faults with releaseT := msTimer Config.releaseMs } }

/-- The CUTOFF line becomes active (R162, R163). -/
def cutoffActiveBody (s : State) : State :=
  let s := { s with cutoffLine := true }
  if s.faults.latch then { s with faults := { s.faults with releaseT := none } } else setLatch s

/-- The CUTOFF line becomes inactive (R163). -/
def cutoffInactiveBody (s : State) : State :=
  let s := { s with cutoffLine := false }
  if s.faults.latch then weighRelease s else s

/-- CUTOFF_ACTIVE. In SLEEP and without power the line changes, and nothing else does (R162). -/
def execCutoffActive (s : State) : Answer :=
  if s.cutoffLine then .next s
  else if s.power = .running then .next (event cutoffActiveBody s) else .next { s with cutoffLine := true }

/-- CUTOFF_INACTIVE. -/
def execCutoffInactive (s : State) : Answer :=
  if !s.cutoffLine then .next s
  else if s.power = .running then .next (event cutoffInactiveBody s) else .next { s with cutoffLine := false }

/-- RELEASE_TIMER_EXPIRY (R163). -/
def execReleaseTimerExpiry (s : State) : Answer := expires s.faults.releaseT weighRelease s

/-- The time left to a kept condition (R166). -/
def detectionLeft (k : Kind) (n : Nat) (f : Faults) : Timer :=
  (f.unconfirmed.find? fun u => u.kind == k && u.subject == n).bind (·.timer)

/-- DETECTION_TIME_EXPIRY (R166): the condition is taken as ended; [20]. -/
def execDetectionTimeExpiry (k : Kind) (n : Nat) (s : State) : Answer :=
  expires (detectionLeft k n s.faults) (reportEnded k n) s

end Sys2Proof.Machine
end

