-- ==== Sys2Proof/Machine/Image.lean ====
section
/-! DEFINITION. The stored image (12 sections 12.1, 12.2): the committed bytes of each table item, the record bytes of the
working tables, the header, and the judgement and loading of an image (R179, R183). -/

namespace Sys2Proof.Machine

/-! ## Items of the working tables -/

/-- The table kinds, in order of kind code. -/
def tableKinds : List Item :=
  [.matchEntry, .slot, .roleMap, .profile, .curve, .armConfig, .template, .channel, .windows, .driveConfig,
   .sprayConfig, .portConfig]

/-- The committed bytes of a working item; none for a read-only kind. -/
def Tables.committed (t : Tables) (k : Item) (i : Nat) : List Byte :=
  match k with
  | .matchEntry => (t.entries[Fin.ofNat 96 i]).encode
  | .slot => (t.slots[Fin.ofNat 48 i]).encode
  | .roleMap => encodeRoles t.roles
  | .profile => (t.profiles[Fin.ofNat 4 i]).encode
  | .curve => (t.curves[Fin.ofNat 12 i]).encode
  | .armConfig => t.arms.encode
  | .template => (t.templates[Fin.ofNat 32 i]).encode
  | .channel => (t.channels[Fin.ofNat 6 i]).encode
  | .windows => encodeWindows t.windows
  | .driveConfig => t.drive.encode
  | .sprayConfig => t.spray.encode
  | .portConfig => t.ports.encode
  | .capture | .fault | .sender => []

/-- Replace a working item by the record its committed bytes give, with the field checks of its chapter. -/
def Tables.replace (t : Tables) (k : Item) (i : Nat) (b : List Byte) : Option Tables :=
  match k with
  | .matchEntry => (MatchEntry.decode b).map fun x => { t with entries := t.entries.set (Fin.ofNat 96 i) x }
  | .slot => (SlotCfg.decode b).map fun x => { t with slots := t.slots.set (Fin.ofNat 48 i) x }
  | .roleMap => (decodeRoles b).map fun x => { t with roles := x }
  | .profile => (Profile.decode b).map fun x => { t with profiles := t.profiles.set (Fin.ofNat 4 i) x }
  | .curve => (Curve.decode b).map fun x => { t with curves := t.curves.set (Fin.ofNat 12 i) x }
  | .armConfig => (ArmConfig.decode b).map fun x => { t with arms := x }
  | .template => (Template.decode b).map fun x => { t with templates := t.templates.set (Fin.ofNat 32 i) x }
  | .channel => (ChannelCfg.decode b).map fun x => { t with channels := t.channels.set (Fin.ofNat 6 i) x }
  | .windows => (decodeWindows b).map fun x => { t with windows := x }
  | .driveConfig => (DriveConfig.decode b).map fun x => { t with drive := x }
  | .sprayConfig => (SprayConfig.decode b).map fun x => { t with spray := x }
  | .portConfig => (PortConfig.decode b).map fun x => { t with ports := x }
  | .capture | .fault | .sender => none

/-- The vote check of every match entry (02 R28, R29). -/
def Tables.votesOk (t : Tables) : Bool := t.entries.all (MatchEntry.voteOk t.slots)

/-! ## Forming an image (R180) -/

/-- The image record of one item: kind code, index and committed bytes when they differ from the factory default. -/
def Tables.imageRecord (t : Tables) (k : Item) (i : Nat) : List Byte :=
  let b := t.committed k i
  if b = Tables.factory.committed k i then [] else byteOf k.code :: byteOf i :: b

/-- The record bytes of the working tables. -/
def Tables.image (t : Tables) : List Byte :=
  tableKinds.flatMap fun k => (List.range k.count).flatMap fun i => t.imageRecord k i

/-- The sum of bytes modulo 2^32, added to a sum so far. -/
def checkSum (start : BitVec 32) (b : List Byte) : BitVec 32 := b.foldl (fun n x => n + x.setWidth 32) start

/-- The header for an image of the working tables. -/
def Tables.header (t : Tables) (image : List Byte) : Header :=
  { reqFmt := t.ports.reqFmt, reqId := t.ports.reqId, repFmt := t.ports.repFmt, repId := t.ports.repId
    startProfile := t.drive.startProfile, length := image.length, check := checkSum 0 image }

/-- The bytes of record page `p` of an image, filled with zeros. -/
def pageBytes (image : List Byte) (p : Nat) : List Byte := padTo 64 (slice image (64 * (p - 1)) 64)

/-- The number of record pages of an image length. -/
def recordPages (length : Nat) : Nat := divUp length 64

/-! ## Judging and loading an image (R179, R183) -/

/-- The header fields are in range; formats and the start profile are so by their types. -/
def Header.inRange (h : Header) : Bool :=
  { PortConfig.factory with reqFmt := h.reqFmt, reqId := h.reqId, repFmt := h.repFmt, repId := h.repId }.identsOk
  && decide (h.length ≤ Config.imageMax)

/-- The record bytes of the nonvolatile area. -/
def Nvm.record (n : Nvm) (length : Nat) : List Byte := Memory.readAll n.cells 64 length

/-- Split record bytes into whole records of known kinds and valid indices; at most as many as there are bytes. -/
def splitRecords : Nat → List Byte → Option (List (Item × Nat × List Byte))
  | _, [] => some []
  | 0, _ :: _ => none
  | fuel + 1, c :: rest => do
    let k ← Item.ofCode c.toNat
    let len ← k.committedLength
    match rest with
    | [] => none
    | i :: body =>
      if i.toNat < k.count ∧ len ≤ body.length then
        let more ← splitRecords fuel (body.drop len)
        return (k, i.toNat, body.take len) :: more
      else none

/-- No index of a kind is given twice. -/
def noRepeats (l : List (Item × Nat × List Byte)) : Bool := decide ((l.map fun r => (r.1, r.2.1)).Nodup)

/-- The header's fields in the place of the record's own, which they replace; [27]. -/
def Header.over (h : Header) (k : Item) (b : List Byte) : List Byte :=
  match k with
  | .portConfig =>
    identBytes h.reqId ++ [byteOf (fmtCode h.reqFmt)] ++ identBytes h.repId ++ [byteOf (fmtCode h.repFmt)] ++ b.drop 10
  | .driveConfig => b.take 14 ++ [byteOf h.startProfile.val] ++ b.drop 15
  | .matchEntry | .slot | .roleMap | .profile | .curve | .armConfig | .template | .channel | .windows | .sprayConfig
  | .capture | .fault | .sender => b

/-- The tables with the header's service identifiers, formats and start profile. -/
def Header.set (h : Header) (t : Tables) : Tables :=
  { t with ports := { t.ports with reqFmt := h.reqFmt, reqId := h.reqId, repFmt := h.repFmt, repId := h.repId }
           drive := { t.drive with startProfile := h.startProfile } }

/-- The tables that the records of an image give. -/
def Header.build (h : Header) : List (Item × Nat × List Byte) → Tables → Option Tables
  | [], t => some (h.set t)
  | (k, i, b) :: more, t => (t.replace k i (h.over k b)).bind (h.build more)

/-- The tables of a valid image, with the sum its pages gave; none when it fails a condition of R179. -/
def Nvm.load (n : Nvm) (sum : BitVec 32) : Option Tables :=
  match n.header with
  | .blank | .torn _ => none
  | .written h =>
    let b := n.record h.length
    if h.inRange && sum == h.check then do
      let records ← splitRecords b.length b
      let t ← if noRepeats records then h.build records Tables.factory else none
      if t.votesOk then return t else none
    else none

/-- The image length a header shows, when its fields are in range. -/
def HeaderPage.length? : HeaderPage → Option Nat
  | .blank => none
  | .torn l => l.filter fun n => decide (n ≤ Config.imageMax)
  | .written h => if h.inRange then some h.length else none

/-- The tables of the image as a cold start judges it. -/
def Nvm.loadWhole (n : Nvm) : Option Tables := n.load (checkSum 0 (n.record ((n.header.length?).getD 0)))

end Sys2Proof.Machine
end

