-- ==== Sys2Proof/Machine/Restart.lean ====
section
/-! DEFINITION. Restarts, ignition shutdown, SLEEP and power (12 sections 12.4 to 12.6), with what each block's chapter
gives for a restart, and the kept conditions that a wake or service restart leaves to be observed again (10 R166). -/

namespace Sys2Proof.Machine

/-! ## Ignition shutdown (12 R184) -/

/-- The start of ignition shutdown: hold, timer, governor HELD, arms FROZEN, every bank closed. -/
def startShutdown (s : State) : State :=
  closeBanks (.all true) (shutdownFreeze (enterHeld
    { s with shutdown := { hold := true, timer := msTimer Config.shutdownMs } }))

/-- The ignition line is judged after a restart (R184). -/
def judgeIgnition (s : State) : State := if s.ignLine then s else startShutdown s

/-! ## Kept conditions (10 R166) -/

/-- The timeout of a slot by number. -/
def slotTimeout (s : State) (n : Nat) : Nat := (s.tables.slots[Fin.ofNat 48 n]).timeout

/-- The arm of a number. -/
def armOf : Nat → Arm
  | 0 => .sl
  | 1 => .sr
  | _ => .mb

/-- The detection time of a kind, ms (R166); none for a kind whose conditions end where they begin. -/
def detectionMs (s : State) (k : Kind) (n : Nat) : Option Nat :=
  match k with
  | .signalStale | .signalDisagree => some (slotTimeout s n)
  | .senderTableFull | .speedNone | .txFull | .cutoff | .storeInvalid => some 0
  | .engineLow => some 10
  | .sprayDry => some 50
  | .tankLow => some (((s.tables.roles[Role.tankLevel.place]).map fun i => s.tables.slots[i].timeout).getD 0 + 50)
  | .speedDisagree => some 200
  | .portLost | .overspeed => some 500
  | .speedChannelLost => some 1000
  | .armObstructed => some (s.armCfg (armOf n)).floatLimit
  | .liftStarved => some 20000
  | .armStuck | .sendWindow | .faultListFull => none

/-- The conditions the list keeps: its ACTIVE records' and the aggregate's merged ones. -/
def Faults.kept (f : Faults) : List (Kind × Nat) :=
  ((f.places.toList.filterMap id).filter fun r => !r.latched).map (fun r => (r.kind, r.subject))
  ++ f.aggregate.elim [] (·.merged)

/-- A kept condition with its detection time; a report at the instant it runs out is still within it, so the timer runs
1 µs longer; [20]. -/
def unconfirmedOf (s : State) (c : Kind × Nat) : Option Unconfirmed :=
  (detectionMs s c.1 c.2).map fun d => ⟨c.1, c.2, some (1000 * d + 1)⟩

/-- Every kept condition is given its detection time. -/
def giveDetection (s : State) : State :=
  let l := s.faults.kept.filterMap (unconfirmedOf s)
  { s with faults := { s.faults with unconfirmed := l } }

/-- A detection time of 0 is judged at the restart itself: what has not been observed by then is taken as ended. -/
def endUnobserved (s : State) : State :=
  (s.faults.unconfirmed.filter fun u => detectionMs s u.kind u.subject == some 0).foldl
    (fun s u => reportEnded u.kind u.subject s) s

/-! ## The blocks after a restart -/

/-- The start profile's motor stroke (04 R64). -/
def Tables.startMotor (t : Tables) : Nat := (t.profiles[t.drive.startProfile]).motor

/-- Every block's run-time state as its chapter gives it for a restart, the fault supervisor apart. -/
def setBlocks (s : State) : State :=
  { s with
    power := .running
    timeUs := 0
    shutdown := { hold := false, timer := none }
    store.op := .idle
    ports := { c := PortUnit.fresh, b := PortUnit.fresh }
    slots := s.tables.slots.map SlotRun.restarted
    senders := Vector.replicate 24 none
    written := 0
    capture := Capture.restarted
    selector := { active := s.tables.drive.startProfile, pending := none }
    gov := Gov.restarted s.tables.startMotor
    arms := s.tables.arms.arms.map ArmRec.restarted
    lift := { holder := none, queue := [], timer := msTimer Config.armPeriodMs }
    alloc := Alloc.restarted
    spray := Spray.restarted s.spray.volume
    channels := s.tables.channels.map ChanRun.restarted
    service := Service.restarted }

/-- The previous reading of FAULT_ACK is the reading at the restart (02 R38). -/
def takeAckReading (s : State) : State := { s with ackReading := (s.role .faultAck).value }

/-- The CUTOFF line is judged: the latch is set when it is active and cleared otherwise (10 R162). -/
def judgeCutoff (s : State) : State :=
  let s := { s with faults := { s.faults with latch := s.cutoffLine, releaseT := none } }
  if s.cutoffLine then reportBegun .cutoff 0 3 s else s

/-- STORE_INVALID at a cold start without a valid image (12 R183), or observed again at another restart while image
valid is clear (R185). -/
def judgeStore (s : State) : State :=
  if !s.store.imageValid && (s.cause == .cold || s.faults.waits .storeInvalid 0) then reportBegun .storeInvalid 0 3 s
  else s

/-- The end of a restart, once tables, image valid and fault list stand: the blocks are set, the conditions of the
restart are reported in the order of their kind codes (SPEED_NONE, CUTOFF, STORE_INVALID), what was not observed again
is ended, the level is formed, and the ignition line is judged; [7], [8]. -/
def restartBlocks (s : State) : State :=
  let s := captureUpdate (takeAckReading (setBlocks s))
  let s := formLevel (endUnobserved (judgeStore (judgeCutoff s)))
  let s := { s with gov.lock := false, ev.armChange := false }
  judgeIgnition s

/-- A cold start (12 R183): tables from the image or the factory defaults, an empty fault list, volume 0, the
capture clock 0; [5]. -/
def coldStart (s : State) : State :=
  let loaded := s.nvm.loadWhole
  restartBlocks
    { s with tables := loaded.getD Tables.factory, store.imageValid := loaded.isSome, cause := .cold, clock := 0
             faults := Faults.empty, spray.volume := 0 }

/-- A wake or a service restart (12 R185). -/
def warmRestart (c : Cause) (s : State) : State := restartBlocks { giveDetection s with cause := c }

/-- WAKE, SERVICE_RESTART and COLD_START as events. -/
def wakeNow (s : State) : State := event (warmRestart .wake) s

/-- The service restart. -/
def serviceRestartNow (s : State) : State := event (warmRestart .service) s

/-- A service restart is due: the RESTART reply has left, and no shutdown hold stands (11 R177, 12 R185). -/
def serviceRestartDue (s : State) : Bool :=
  s.power == .running && s.service.restart == .left && !s.shutdown.hold

/-- Make the service restart that an event has made due; [12]. -/
def restartIfDue (s : State) : State := if serviceRestartDue s then serviceRestartNow s else s

/-! ## SLEEP (12 R184) -/

/-- SLEEP is due: shutdown with its timer run out, no STORE or RECALL in flight. -/
def sleepDue (s : State) : Bool :=
  s.power == .running && s.shutdown.hold && s.shutdown.timer.isNone && s.store.op == .idle

/-- A port unit in SLEEP: silent, its link state kept (01 R2). -/
def PortUnit.silent (p : PortUnit) : PortUnit := { p with queue := [], offered := none, holders := [] }

/-- A channel at the entry into SLEEP: a send in progress ends uncounted (09 R146). -/
def ChanRun.asleep (c : ChanRun) : ChanRun :=
  { c with state := .idle, out := 0, stop := false, awaited := none }

/-- The entry into SLEEP: queues and replies emptied, every period and timer stopped. -/
def sleepBody (s : State) : State :=
  let s := stopTimers s
  { s with
    power := .sleep
    shutdown := { hold := false, timer := none }
    ports := { c := s.ports.c.silent, b := s.ports.b.silent }
    channels := s.channels.map ChanRun.asleep
    service.replies := []
    service.deferred := none }

/-- Enter SLEEP; a wake restart follows at once when the IGN line is active. -/
def enterSleep (s : State) : State :=
  let s := event sleepBody s
  if s.ignLine then wakeNow s else s

/-- Enter SLEEP when an event has made it due, that event having been taken whole; [48]. -/
def sleepIfDue (s : State) : State := if sleepDue s then enterSleep s else s

/-! ## Power (12 R181, R183) -/

/-- What a failed or interrupted write of record page `p` leaves: 64 free bytes; [6]. -/
def failedPage (s : State) (p : Nat) : State :=
  { s with nvm := { s.nvm with cells := Memory.writeAll s.nvm.cells (64 * p)
                                          ((List.range 64).map (Config.failedPageByte s.choices)) }
           choices := s.choices + 1 }

/-- What a failed or interrupted write of the header page leaves; [6]. -/
def failedHeader (s : State) : State :=
  { s with nvm := { s.nvm with header := .torn (Config.tornHeaderLength s.choices) }, choices := s.choices + 1 }

/-- A page write that does not end well. -/
def failedStep (page : Nat) (s : State) : State := if page = 0 then failedHeader s else failedPage s page

/-- Power is lost (R181, R182): a store stops where it stands, a RECALL leaves the image as it was. -/
def losePower (s : State) : State :=
  let s := match s.store.op with
    | .storing r => failedStep r.page s
    | .idle | .recalling _ => s
  { s with power := .unpowered, store.op := .idle }

/-- POWER_LOSS. The volatile state is lost; the fields keep no meaning until the next cold start sets them; [23]. -/
def execPowerLoss (s : State) : Answer := if s.power = .unpowered then .next s else .next (losePower s)

/-- COLD_START: power is applied; applied to a powered part it follows a loss of power; [23]. -/
def execColdStart (s : State) : Answer :=
  .next (event coldStart (if s.power = .unpowered then s else losePower s))

/-- WAKE: the IGN line becomes active. In SLEEP a wake restart follows; otherwise the line is noted. -/
def execWake (s : State) : Answer :=
  let s' := { s with ignLine := true }
  if s.power = .sleep then .next (wakeNow s') else .next s'

/-- IGNITION_SHUTDOWN: the IGN line becomes inactive. Shutdown starts unless the part is in shutdown or in SLEEP. -/
def execIgnitionShutdown (s : State) : Answer :=
  if s.ignLine then
    let s' := { s with ignLine := false }
    if s.power = .running ∧ s.shutdown.hold = false then .next (event startShutdown s') else .next s'
  else .next s

/-- SHUTDOWN_TIMER_EXPIRY: SLEEP is entered unless an operation is in flight. -/
def shutdownExpired (s : State) : State := { s with shutdown.timer := none }

/-- SHUTDOWN_TIMER_EXPIRY. -/
def execShutdownTimerExpiry (s : State) : Answer :=
  if s.power = .running then
    match s.shutdown.timer with
    | some r => .next (sleepIfDue (event shutdownExpired (advance r s)))
    | none => .next s
  else .next s

/-- SLEEP_ENTRY alone: SLEEP is due; [25]. -/
def execSleepEntry (s : State) : Answer := .next (sleepIfDue s)

/-- SERVICE_RESTART alone: the restart is due; [25]. -/
def execServiceRestart (s : State) : Answer := .next (restartIfDue s)

/-! ## The link events that a service restart may follow -/

/-- FRAME_SENT on a port whose link holds an offered record (01 R5). -/
def execFrameSent (q : Port) (s : State) : Answer :=
  if s.power = .running then
    match (s.ports.get q).offeredRecord with
    | some r => .next (restartIfDue (event (frameSentBody q r) s))
    | none => .next s
  else .next s

/-- LINK_LOST on an ON port (01 R7). -/
def execLinkLost (q : Port) (s : State) : Answer :=
  if s.power = .running ∧ (s.ports.get q).on = true then .next (restartIfDue (event (linkLostBody q) s)) else .next s

end Sys2Proof.Machine
end

