-- ==== Sys2Proof/Machine/Store.lean ====
section
/-! DEFINITION. The table store (12 R180 to R182): STORE and RECALL from their start to their completion, and the effects
of a RECALL that finds a valid image. -/

namespace Sys2Proof.Machine

/-! ## Statuses and replies (11 section 11.1) -/

/-- The reply statuses. -/
inductive Status where
  | ok | notOpen | notParked | armsOut | busy | badItem | badValue | inUse | storeFail | unknownRequest | tooShort
deriving DecidableEq, Repr

/-- The code of a status. -/
def Status.code : Status → Nat
  | .ok => 0
  | .notOpen => 1
  | .notParked => 2
  | .armsOut => 3
  | .busy => 4
  | .badItem => 5
  | .badValue => 6
  | .inUse => 7
  | .storeFail => 8
  | .unknownRequest => 9
  | .tooShort => 10

/-- The data bytes of a reply: code, tag, status, and up to five data bytes filled with zeros. -/
def replyBytes (code tag : Byte) (st : Status) (data : List Byte) : List Byte :=
  code :: tag :: byteOf st.code :: padTo 5 (data.take 5)

/-- The deferred reply of the operation that completes is made (11 R174). -/
def deferredReply (st : Status) (s : State) : State :=
  match s.service.deferred with
  | none => s
  | some (code, tag) =>
    makeReply { data := replyBytes code tag st [], isRestart := false, offered := none } { s with service.deferred := none }

/-- The operation in flight ends. -/
def endOperation (s : State) : State := { s with store.op := .idle }

/-! ## STORE (R180, R181) -/

/-- The page whose step follows: the record pages in order, then the header page. -/
def pageAfter (length page : Nat) : Nat := if page + 1 ≤ recordPages length then page + 1 else 0

/-- A page step of a STORE begins. -/
def beginStep (r : StoreRun) (page : Nat) (s : State) : State :=
  { s with store.op := .storing { r with page := page, timer := msTimer Config.pageStepMs } }

/-- A STORE starts (R180). -/
def startStore (s : State) : State :=
  let image := s.tables.image
  if Config.imageMax < image.length then deferredReply .storeFail s
  else
    let r : StoreRun := { image := image, header := s.tables.header image, page := 0, timer := none }
    beginStep r (pageAfter image.length 0)
      { s with nvm := { s.nvm with header := .blank }, store.imageValid := false }

/-- The header page's step ends well: the STORE completes. -/
def storeDone (r : StoreRun) (s : State) : State :=
  let s := { s with nvm := { s.nvm with header := .written r.header }, store.imageValid := true }
  deferredReply .ok (reportEnded .storeInvalid 0 (endOperation s))

/-- A record page's step ends well: the page holds its bytes, the next step begins. -/
def pageDone (r : StoreRun) (s : State) : State :=
  let cells := Memory.writeAll s.nvm.cells (64 * r.page) (pageBytes r.image r.page)
  beginStep r (pageAfter r.image.length r.page) { s with nvm := { s.nvm with cells := cells } }

/-- A page fails its read-back: the STORE ends (R181). -/
def storeFailed (r : StoreRun) (s : State) : State := deferredReply .storeFail (endOperation (failedStep r.page s))

/-- A page step ends. -/
def storeStep (readsBack : Bool) (r : StoreRun) (s : State) : State :=
  if readsBack then if r.page = 0 then storeDone r s else pageDone r s else storeFailed r s

/-- The STORE in flight. -/
def StoreOp.store? : StoreOp → Option StoreRun
  | .storing r => some r
  | .idle | .recalling _ => none

/-- The RECALL in flight. -/
def StoreOp.recall? : StoreOp → Option RecallRun
  | .recalling r => some r
  | .idle | .storing _ => none

/-- An event that may bring the end of the operation in flight, and with it SLEEP (R184), which is entered after the whole
of the event, its triggers included; [48]. -/
def operationEvent (t : Timer) (body : State → State) (s : State) : Answer :=
  if s.power = .running then
    match t with
    | some n => .next (sleepIfDue (event body (advance n s)))
    | none => .next s
  else .next s

/-- STORE_PAGE_STEP: the step in progress ends, and the page reads back as written or does not. -/
def execStorePageStep (readsBack : Bool) (s : State) : Answer :=
  match s.store.op.store? with
  | some r => operationEvent r.timer (storeStep readsBack r) s
  | none => .next s

/-- STORE_COMPLETION: the header page's step ends well. -/
def execStoreCompletion (s : State) : Answer :=
  match s.store.op.store? with
  | some r => if r.page = 0 then operationEvent r.timer (storeDone r) s else .next s
  | none => .next s

/-! ## RECALL (R182) -/

/-- Every slot is set as an accepted COMMIT of it sets it (02 R28). -/
def recallSlots (s : State) : State :=
  (allFin 48).foldl (fun s n => reportEnded .signalDisagree n.val (reportEnded .signalStale n.val (restartSlot n s))) s

/-- Every channel is set as a RECALL sets it (09 R145). -/
def recallChannels (s : State) : State :=
  { s with channels := Vector.zipWith recalledChannel s.tables.channels s.channels }

/-- Every working table is replaced at one event, with the effects the chapters give (R182). -/
def replaceTables (t : Tables) (s : State) : State :=
  let old := s.tables.arms
  let s := removeSenders (fun _ => true) (fun _ => true) { s with tables := t }
  weighAck (resetCapture (actOnFitted old (recallChannels (recallSlots s))))

/-- The RECALL completes, with the sum of its pages. -/
def recallDone (sum : BitVec 32) (s : State) : State :=
  let s := endOperation s
  match s.nvm.load sum with
  | some t => deferredReply .ok (replaceTables t s)
  | none => deferredReply .storeFail { s with store.imageValid := false }

/-- A page read begins. -/
def beginRead (r : RecallRun) (s : State) : State :=
  { s with store.op := .recalling { r with timer := msTimer Config.pageReadMs } }

/-- A RECALL starts; an image without record bytes has no page to read; [19]. -/
def startRecall (s : State) : State :=
  match s.nvm.header.length? with
  | none => deferredReply .storeFail { s with store.imageValid := false }
  | some l => if l = 0 then recallDone 0 s else beginRead { length := l, page := 1, sum := 0, timer := none } s

/-- The bytes of the page being read that belong to the image. -/
def readBytes (r : RecallRun) (s : State) : List Byte :=
  Memory.readAll s.nvm.cells (64 * r.page) (min 64 (r.length - 64 * (r.page - 1)))

/-- A page's read ends: the next begins, or the RECALL completes. -/
def readDone (r : RecallRun) (s : State) : State :=
  let sum := checkSum r.sum (readBytes r s)
  if r.page < recordPages r.length then beginRead { r with page := r.page + 1, sum := sum } s else recallDone sum s

/-- RECALL_PAGE_READ: the page being read has been read. -/
def execRecallPageRead (s : State) : Answer :=
  match s.store.op.recall? with
  | some r => operationEvent r.timer (readDone r) s
  | none => .next s

/-- RECALL_COMPLETION: the last page has been read. -/
def execRecallCompletion (s : State) : Answer :=
  match s.store.op.recall? with
  | some r => if r.page < recordPages r.length then .next s else operationEvent r.timer (readDone r) s
  | none => .next s

end Sys2Proof.Machine
end

