-- ==== Sys2Proof/Machine/Commits.lean ====
section
/-! DEFINITION. COMMIT (11 R173): the checks of a staged record and what an accepted one brings, item by item, as the
items' chapters give it. Each commit answers its status and the state after it. -/

namespace Sys2Proof.Machine

/-- A status with the state after the request. -/
abbrev Judged := Status × State

/-- A refused COMMIT leaves everything as it was. -/
def refuse (st : Status) (s : State) : Judged := (st, s)

/-- The staged record of an item kind. -/
def staged (s : State) (len : Nat) : List Byte := s.service.stage.toList.take len

/-- The index of a COMMIT within its kind, and the staged record read; BAD_VALUE otherwise. -/
def commitWith {α : Type} (n index len : Nat) (decode : List Byte → Option α) (accept : Fin n → α → State → Judged)
    (s : State) : Judged :=
  match fin? n index, decode (staged s len) with
  | some i, some x => accept i x s
  | some _, none | none, _ => refuse .badValue s

/-- The sender records of an entry are removed by its COMMIT (02 R33). -/
def acceptMatch (i : Fin 96) (e : MatchEntry) (s : State) : Judged :=
  if e.voteOk s.tables.slots then
    (.ok, weighAck (removeSenders (fun r => r.entry == i) (fun _ => false)
      { s with tables := { s.tables with entries := s.tables.entries.set i e } }))
  else refuse .badValue s

/-- COMMIT of MATCH (01 R12, 02 R29). -/
def commitMatchItem (index : Nat) (s : State) : Judged := commitWith 96 index 64 MatchEntry.decode acceptMatch s

/-- The vote check of a new slot configuration (02 R28): every entry that picks into the slot still passes. -/
def slotVoteOk (t : Tables) (i : Fin 48) (c : SlotCfg) : Bool :=
  t.entries.all fun e => !(e.picks.any fun p => p.slot == i) || e.voteOk (t.slots.set i c)

/-- An accepted slot: its senders removed, the slot set as at a restart, its conditions ended (02 R28). -/
def acceptSlot (i : Fin 48) (c : SlotCfg) (s : State) : Judged :=
  if slotVoteOk s.tables i c then
    let s := { s with tables := { s.tables with slots := s.tables.slots.set i c } }
    let s := restartSlot i (removeSenders (fun r => r.slot == i) (fun n => n == i) s)
    (.ok, weighAck (reportEnded .signalDisagree i.val (reportEnded .signalStale i.val s)))
  else refuse .badValue s

/-- COMMIT of SLOT (02 R28). -/
def commitSlotItem (index : Nat) (s : State) : Judged := commitWith 48 index 23 SlotCfg.decode acceptSlot s

/-- COMMIT of ROLE_MAP (02 R37, R38). -/
def commitRoleMapItem (index : Nat) (s : State) : Judged :=
  commitWith 1 index 18 decodeRoles
    (fun _ x s => (.ok, weighAck { s with tables := { s.tables with roles := x } })) s

/-- COMMIT of PROFILE (04 R56). -/
def commitProfileItem (index : Nat) (s : State) : Judged :=
  commitWith 4 index 31 Profile.decode
    (fun i x s => (.ok, { s with tables := { s.tables with profiles := s.tables.profiles.set i x } })) s

/-- COMMIT of CURVE (04 R55). -/
def commitCurveItem (index : Nat) (s : State) : Judged :=
  commitWith 12 index 20 Curve.decode
    (fun i x s => (.ok, { s with tables := { s.tables with curves := s.tables.curves.set i x } })) s

/-- COMMIT of ARM_CONFIG (06 R88). -/
def commitArmConfigItem (index : Nat) (s : State) : Judged :=
  commitWith 1 index 59 ArmConfig.decode
    (fun _ x s => (.ok, actOnFitted s.tables.arms { s with tables := { s.tables with arms := x } })) s

/-- A channel is enabled or not IDLE (09 R145). -/
def ChanRun.inUse (c : ChanRun) : Bool := c.enable || c.state != .idle

/-- A template lies in a channel's run. -/
def ChannelCfg.inRun (c : ChannelCfg) (n : Nat) : Bool := decide (c.runStart ≤ n) && decide (n < c.runStart + c.runLen)

/-- A template lies in the run of a channel in use (09 R145). -/
def templateInUse (s : State) (n : Nat) : Bool := (allFin 6).any fun ch => (s.chan ch).inUse && (s.chanCfg ch).inRun n

/-- COMMIT of TEMPLATE (09 R140, R145). -/
def commitTemplateItem (index : Nat) (s : State) : Judged :=
  commitWith 32 index 64 Template.decode
    (fun i x s =>
      if templateInUse s i.val then refuse .inUse s
      else (.ok, { s with tables := { s.tables with templates := s.tables.templates.set i x } })) s

/-- COMMIT of CHANNEL (09 R145, R146). -/
def commitChannelItem (index : Nat) (s : State) : Judged :=
  commitWith 6 index 12 ChannelCfg.decode
    (fun i x s =>
      if (s.chan i).inUse then refuse .inUse s
      else
        (.ok, onChan i (fun _ => ChanRun.restarted x)
          { s with tables := { s.tables with channels := s.tables.channels.set i x } })) s

/-- COMMIT of WINDOWS (01 R19). -/
def commitWindowsItem (index : Nat) (s : State) : Judged :=
  commitWith 1 index 36 decodeWindows (fun _ x s => (.ok, { s with tables := { s.tables with windows := x } })) s

/-- COMMIT of DRIVE_CONFIG (03 R40, 05 R66, 07 R110, 10 R164): capture is reset. -/
def commitDriveConfigItem (index : Nat) (s : State) : Judged :=
  commitWith 1 index 18 DriveConfig.decode
    (fun _ x s => (.ok, resetCapture { s with tables := { s.tables with drive := x } })) s

/-- COMMIT of SPRAY_CONFIG (08 R126). -/
def commitSprayConfigItem (index : Nat) (s : State) : Judged :=
  commitWith 1 index 8 SprayConfig.decode (fun _ x s => (.ok, { s with tables := { s.tables with spray := x } })) s

/-- COMMIT of PORT_CONFIG (01 R20). -/
def commitPortConfigItem (index : Nat) (s : State) : Judged :=
  commitWith 1 index 12 PortConfig.decode (fun _ x s => (.ok, { s with tables := { s.tables with ports := x } })) s

/-- COMMIT of an item by its kind code (11 R173): an unknown or read-only kind gives BAD_ITEM. -/
def commitItem (code index : Nat) (s : State) : Judged :=
  match Item.ofCode code with
  | some .matchEntry => commitMatchItem index s
  | some .slot => commitSlotItem index s
  | some .roleMap => commitRoleMapItem index s
  | some .profile => commitProfileItem index s
  | some .curve => commitCurveItem index s
  | some .armConfig => commitArmConfigItem index s
  | some .template => commitTemplateItem index s
  | some .channel => commitChannelItem index s
  | some .windows => commitWindowsItem index s
  | some .driveConfig => commitDriveConfigItem index s
  | some .sprayConfig => commitSprayConfigItem index s
  | some .portConfig => commitPortConfigItem index s
  | some .capture | some .fault | some .sender | none => refuse .badItem s

end Sys2Proof.Machine
end

