-- ==== Sys2Proof/Machine/Snapshots.lean ====
section
/-! DEFINITION. The records that READ_ITEM returns (11 R171, section 11.7; 03 R53; 10 R165): committed bytes, and the
run-time bytes of SLOT, CHANNEL, CAPTURE, FAULT and SENDER. -/

namespace Sys2Proof.Machine

/-- Two flags as bits 0 and 1. -/
def twoBits (b0 b1 : Bool) : Byte := byteOf ((if b0 then 1 else 0) + (if b1 then 2 else 0))

/-- The whole ms a timer has left, 0 when stopped: of a slot as 11.7 says, of a sender by analogy; [21]. -/
def Timer.ms (t : Timer) : Nat := wholeMs (t.getD 0)

/-- A 4-byte field; a number it cannot hold shows as the free value gives; [22]. -/
def wideBytes (n : Nat) : List Byte := leBytes 4 (if n < 2 ^ 32 then n else Config.wideField n)

/-- The code of a slot status. -/
def SlotStatus.code : SlotStatus → Nat
  | .never => 0
  | .fresh => 1
  | .stale => 2

/-- The 36 bytes of a SLOT record. -/
def slotRecord (c : SlotCfg) (r : SlotRun) : List Byte :=
  c.encode ++ [byteOf r.status.code] ++ leBytesInt 4 r.last ++ leBytesInt 4 (slotValue c r)
  ++ [boolByte r.clamped, twoBits r.evenSeen r.oddSeen] ++ leBytes 2 r.timer.ms

/-- The code of a channel state. -/
def ChanState.code : ChanState → Nat
  | .idle => 0
  | .sending => 1
  | .stalled => 2

/-- The 21 bytes of a CHANNEL record. -/
def channelRecord (c : ChannelCfg) (r : ChanRun) : List Byte :=
  c.encode ++ [boolByte r.enable, boolByte r.pending, byteOf r.state.code, boolByte r.stop] ++ leBytes 2 r.remaining
  ++ [byteOf r.position, byteOf r.out, boolByte r.done]

/-- The code of a capture mode. -/
def CapMode.code : CapMode → Nat
  | .period => 0
  | .count => 1

/-- The code of a capture status. -/
def CapStatus.code : CapStatus → Nat
  | .running => 0
  | .standstill => 1
  | .lost => 2

/-- The 21 bytes of a capture channel (03 R53). -/
def capRecord (c : CapCfg) (r : CapRun) : List Byte :=
  [boolByte c.fitted] ++ leBytes 2 c.cp ++ [byteOf r.mode.code, byteOf r.status.code, boolByte r.measuring]
  ++ leBytes 4 (r.lastEdge.elim 0 BitVec.toNat) ++ leBytes 4 (r.lastPeriod.getD 0) ++ leBytes 2 r.count
  ++ [boolByte r.forward] ++ leBytesInt 4 r.speed

/-- The 51 bytes of the CAPTURE record (03 R53). -/
def captureRecord (s : State) : List Byte :=
  leBytes 4 s.clock.toNat ++ leBytesInt 4 s.capture.s ++ [boolByte s.capture.disagree]
  ++ capRecord s.tables.drive.capA s.capture.a ++ capRecord s.tables.drive.capB s.capture.b

/-- A member of a merged set: kind code and subject. -/
def memberBytes (m : Kind × Nat) : List Byte := [byteOf m.1.code, byteOf m.2]

/-- The 63 bytes of a FAULT record; a free place reads 0. -/
def faultRecord : Option FaultRec → List Byte
  | none => zeros 63
  | some r =>
    [1, byteOf r.kind.code, byteOf r.subject, byteOf r.severity.val, boolByte r.ack, boolByte r.latched, byteOf r.count,
     boolByte r.announced] ++ wideBytes r.firstSeen ++ wideBytes r.order ++ [byteOf (min r.merged.length 255)]
    ++ padTo 46 ((r.merged.take 23).flatMap memberBytes)

/-- The fault record in a place; the aggregate is in place 15 (10 R165). -/
def Faults.at (f : Faults) (i : Nat) : Option FaultRec :=
  match fin? 15 i with
  | some j => f.places[j]
  | none => f.aggregate

/-- Bytes `i` to `i + k - 1` of a record whose content the manual does not state; [22]. -/
def unstated (n i k : Nat) : List Byte := (List.range k).map fun j => Config.unstatedByte n (i + j)

/-- The 22 bytes of a SENDER record, read at the counter value `n` of the free values [22]; the timer of a SILENT sender,
which is stopped, shows 0; [21]. -/
def senderRecord (n : Nat) : Option SenderRec → List Byte
  | none => 0 :: unstated n 1 21
  | some r =>
    [1, byteOf (portNumber r.port), byteOf (fmtCode r.fmt)] ++ identBytes r.id
    ++ [byteOf r.entry.val, byteOf r.slot.val, boolByte r.last.isSome]
    ++ (match r.last with | some v => leBytesInt 4 v | none => unstated n 10 4)
    ++ [twoBits r.evenSeen r.oddSeen, if r.fresh then 0 else 1] ++ leBytes 2 r.timer.ms ++ wideBytes (wholeMs r.silentUs)

/-- The whole record of an item (11 R171). -/
def recordOf (s : State) (k : Item) (i : Nat) : List Byte :=
  match k with
  | .slot => slotRecord s.tables.slots[Fin.ofNat 48 i] s.slots[Fin.ofNat 48 i]
  | .channel => channelRecord s.tables.channels[Fin.ofNat 6 i] s.channels[Fin.ofNat 6 i]
  | .capture => captureRecord s
  | .fault => faultRecord (s.faults.at i)
  | .sender => senderRecord s.choices s.senders[Fin.ofNat 24 i]
  | .matchEntry | .roleMap | .profile | .curve | .armConfig | .template | .windows | .driveConfig | .sprayConfig
  | .portConfig => s.tables.committed k i

/-- The five bytes of a chunk. -/
def chunkBytes (record : List Byte) (chunk : Nat) : List Byte := slice record (5 * chunk) 5

end Sys2Proof.Machine
end

