-- ==== Sys2Proof/WellFormed.lean ====
section
/-! DEFINITION. Which commands are well formed: what their operands must be for the event to exist at all. Argument
bytes of service requests may hold any value: the service unit answers bad ones (11 R167). -/

namespace Sys2Proof

/-- A frame has at most 8 data bytes and, when standard, an 11-bit identifier; 01 section 1.1. -/
def Frame.wf (f : Frame) : Bool :=
  decide (f.data.length ≤ 8) && (f.fmt == .ext || decide (f.id.toNat ≤ 0x7FF))

/-- The request codes of the table of 11 section 11.1. -/
def isRequestCode (code : Byte) : Bool := decide (1 ≤ code.toNat) && decide (code.toNat ≤ 0x0D)

/-- The subjects a kind has (10 section 10.1): a slot, an arm, a capture channel, a send channel, a port, or 0. -/
def Kind.subjects : Kind → Nat
  | .signalStale | .signalDisagree => 48
  | .speedChannelLost => 2
  | .armStuck | .armObstructed | .liftStarved => 3
  | .sendWindow => 6
  | .portLost | .txFull => 2
  | .senderTableFull | .speedDisagree | .speedNone | .engineLow | .overspeed | .tankLow | .sprayDry
  | .cutoff | .storeInvalid | .faultListFull => 1

/-- Well-formedness of a command: a received frame is a frame, an unknown request has a code outside the table and a
detection time belongs to a subject its kind has. -/
def Instr.wf : Instr → Bool
  | .frameReceived _ f => f.wf
  | .unknownRequest code _ => !isRequestCode code
  | .detectionTimeExpiry k n => decide (n < k.subjects)
  | .frameSent _ | .waitingHolderPlaced _ | .linkLost _ | .linkRestored _ | .pulseEdge _ _ _
  | .windowTimerExpiry _ | .standstillTimerExpiry _ | .disagreementTimerExpiry | .lossTimerExpiry _
  | .returnTimerExpiry _ | .freshnessTimerExpiry _ | .senderTimerExpiry _ | .silentTimeEnd _
  | .governorPeriod | .overspeedTimeLimit | .armPeriod | .motionTimerExpiry _ | .floatTimerExpiry _
  | .waitTimerExpiry _ | .allocatorPeriod | .sprayPeriod | .lingerEnd | .intervalTimerExpiry _
  | .sendCompletion _ | .cutoffActive | .cutoffInactive | .releaseTimerExpiry | .ignitionShutdown
  | .shutdownTimerExpiry | .sleepEntry | .wake | .coldStart | .serviceRestart | .inactivityTimerExpiry
  | .storePageStep _ | .storeCompletion | .recallPageRead | .recallCompletion | .openConfig _
  | .closeConfig _ | .readItem _ _ _ _ | .stage _ _ _ _ _ _ | .commitMatch _ _ | .commitSlot _ _
  | .commitRoleMap _ _ | .commitProfile _ _ | .commitCurve _ _ | .commitArmConfig _ _
  | .commitTemplate _ _ | .commitChannel _ _ | .commitWindows _ _ | .commitDriveConfig _ _
  | .commitSprayConfig _ _ | .commitPortConfig _ _ | .store _ | .recall _ | .status _ _ | .ackFaults _
  | .channelControlEnable _ _ | .channelControlDisable _ _ | .channelControlTrigger _ _ | .restart _
  | .clearVolume _ | .dropSenders _ _ | .powerLoss => true

end Sys2Proof
end

