-- ==== Sys2Proof/Machine/Service.lean ====
section
/-! DEFINITION. The service unit (11): the judgement of a request, the requests, the session, and the commands that bring
a request. A request command acts as the frame with those bytes on the C-port; [26]. -/

namespace Sys2Proof.Machine

/-- A reply to a request is made (R167). -/
def answer (code tag : Byte) (st : Status) (data : List Byte) (s : State) : State :=
  makeReply { data := replyBytes code tag st data, isRestart := false, offered := none } s

/-- A judged request is answered without data. -/
def answerJudged (code tag : Byte) (j : Judged) : State := answer code tag j.1 [] j.2

/-! ## Session (R169, R170) -/

/-- The governor's published state is NEUTRAL or HELD, and the machine is at standstill. -/
def atRest (s : State) : Bool := (s.gov.state == .neutral || s.gov.state == .held) && s.standstill

/-- PARK is engaged and fresh. -/
def parkSure (s : State) : Bool :=
  let r := s.role .park
  r.fresh && r.value != 0

/-- The list holds a STORE_INVALID record. -/
def storeInvalidListed (s : State) : Bool := s.faults.records.any fun r => r.kind == .storeInvalid

/-- Every fitted arm is STOWED. -/
def armsStowed (s : State) : Bool := allArms.all fun a => !(s.armCfg a).fitted || (s.arms.get a).state == .stowed

/-- The session opens (R169). -/
def openSession (s : State) : State :=
  enterHeld { s with service := { s.service with session := true, inactivityT := msTimer Config.inactivityMs,
                                                 stage := Vector.replicate 64 0 } }

/-- The session closes (R170). -/
def closeSession (s : State) : State :=
  { s with service := { s.service with session := false, inactivityT := none } }

/-- OPEN_CONFIG's own checks and effect. -/
def openConfig (s : State) : Judged :=
  if s.service.session then (.ok, s)
  else if !(atRest s && (parkSure s || storeInvalidListed s)) then (.notParked, s)
  else if !armsStowed s then (.armsOut, s)
  else (.ok, openSession s)

/-! ## Reading and staging (R171, R172) -/

/-- READ_ITEM of a kind in the table, at an index and chunk: the status, the chunk's bytes and the state after it. -/
def readKind (k : Item) (index chunk : Nat) (s : State) : Status × List Byte × State :=
  if index < k.count ∧ chunk ≤ (k.recordLength - 1) / 5 then
    if chunk = 0 then
      let b := recordOf s k index
      (.ok, chunkBytes b 0, { s with service.readBuf := some ⟨k, index, b⟩, choices := s.choices + 1 })
    else
      match s.service.readBuf with
      | some snap =>
        if snap.item = k ∧ snap.index = index then (.ok, chunkBytes snap.bytes chunk, s) else (.badValue, [], s)
      | none => (.badValue, [], s)
  else (.badValue, [], s)

/-- READ_ITEM. -/
def readItem (code index chunk : Nat) (s : State) : Status × List Byte × State :=
  match Item.ofCode code with
  | some k => readKind k index chunk s
  | none => (.badItem, [], s)

/-- Write bytes into the stage buffer from an offset on; bytes beyond its end are not written. -/
def stageBytes (stage : Vector Byte 64) : Nat → List Byte → Vector Byte 64
  | _, [] => stage
  | i, b :: bs => stageBytes (stage.setIfInBounds i b) (i + 1) bs

/-- STAGE. -/
def stageItem (offset : Nat) (data : List Byte) (s : State) : Judged :=
  if offset ≤ 60 then (.ok, { s with service.stage := stageBytes s.service.stage offset data }) else (.badValue, s)

/-! ## The other requests (R174 to R177) -/

/-- STORE: the operation starts and the reply is deferred. -/
def beginStoreRequest (code tag : Byte) (s : State) : State :=
  startStore { s with service.deferred := some (code, tag) }

/-- RECALL: the operation starts and the reply is deferred. -/
def beginRecallRequest (code tag : Byte) (s : State) : State :=
  startRecall { s with service.deferred := some (code, tag) }

/-- The code of a governor state (R175). -/
def GovState.code : GovState → Nat
  | .neutral => 0
  | .forward => 1
  | .reverse => 2
  | .stopping => 3
  | .held => 4

/-- The code of a restart cause (R175). -/
def Cause.code : Cause → Nat
  | .cold => 0
  | .wake => 1
  | .service => 2

/-- Whether a STORE or RECALL is in flight (R174). -/
def inFlight (s : State) : Bool := s.store.op != .idle

/-- The data bytes of a STATUS page (R175). -/
def statusPage (s : State) : Nat → Option (List Byte)
  | 0 => some [byteOf s.faults.level.val, byteOf s.gov.state.code, byteOf s.cause.code, byteOf s.selector.active.val,
               twoBits s.service.session (inFlight s)]
  | 1 => some (leBytes 2 s.spray.duty ++ [byteOf s.spray.mask] ++ leBytes 2 s.alloc.request)
  | 2 => some (leBytes 4 (min s.spray.volumeMl 4294967295))
  | _ => none

/-- CHANNEL_CONTROL's own checks and effect (R176, 09 R155); a send it triggers starts before the reply is made; [13]. -/
def channelControl (channel action : Nat) (s : State) : Judged :=
  match fin? 6 channel, action with
  | some ch, 0 => (.ok, enableChannel ch s)
  | some ch, 1 => (.ok, disableChannel ch s)
  | some ch, 2 => (.ok, giveTrigger ch s)
  | some _, _ => (.badValue, s)
  | none, _ => (.badValue, s)

/-- RESTART (R177): the restart mark is set and its OK is made into the reply list. -/
def restartRequest (code tag : Byte) (s : State) : State :=
  if s.service.session || atRest s then
    makeReply { data := replyBytes code tag .ok [], isRestart := true, offered := none } { s with service.restart := .listed }
  else answer code tag .notParked [] s

/-- The volume accumulator is cleared (08 R136). -/
def clearedVolume (s : State) : State := { s with spray.volume := 0 }

/-- DROP_SENDERS' own checks and effect (R176, 02 R33). -/
def dropSenders (slot : Nat) (s : State) : Judged :=
  if slot = 255 then (.ok, weighAck (removeSenders (fun _ => true) (fun _ => false) s))
  else
    match fin? 48 slot with
    | some n => (.ok, weighAck (removeSenders (fun r => r.slot == n) (fun _ => false) s))
    | none => (.badValue, s)

/-! ## Judgement (R167) -/

/-- The least length of a request code; none for a code not in the table. -/
def leastLength : Nat → Option Nat
  | 0x01 => some 2
  | 0x02 => some 2
  | 0x03 => some 5
  | 0x04 => some 7
  | 0x05 => some 4
  | 0x06 => some 2
  | 0x07 => some 2
  | 0x08 => some 2
  | 0x09 => some 2
  | 0x0A => some 4
  | 0x0B => some 2
  | 0x0C => some 2
  | 0x0D => some 3
  | _ => none

/-- Whether a request needs the session. -/
def needsSession (code : Nat) : Bool := decide (4 ≤ code) && decide (code ≤ 7)

/-- Whether a request is answered while an operation is in flight. -/
def answeredInFlight (code : Nat) : Bool := code == 3 || code == 8

/-- A request that passes the common checks is judged by its own and carried out. `data` is the whole frame. -/
def carryOutRequest (code tag : Byte) (data : List Byte) (s : State) : State :=
  match code.toNat with
  | 0x01 => answerJudged code tag (openConfig s)
  | 0x02 => answer code tag .ok [] (closeSession s)
  | 0x03 =>
    let r := readItem (u8 data 2) (u8 data 3) (u8 data 4) s
    answer code tag r.1 r.2.1 r.2.2
  | 0x04 => answerJudged code tag (stageItem (u8 data 2) (slice data 3 4) s)
  | 0x05 => answerJudged code tag (commitItem (u8 data 2) (u8 data 3) s)
  | 0x06 => beginStoreRequest code tag s
  | 0x07 => beginRecallRequest code tag s
  | 0x08 =>
    match statusPage s (u8 data 2) with
    | some b => answer code tag .ok b s
    | none => answer code tag .badValue [] s
  | 0x09 => answer code tag .ok [] (acknowledge s)
  | 0x0A => answerJudged code tag (channelControl (u8 data 2) (u8 data 3) s)
  | 0x0B => restartRequest code tag s
  | 0x0C => answer code tag .ok [] (clearedVolume s)
  | 0x0D => answerJudged code tag (dropSenders (u8 data 2) s)
  | _ => s

/-- The common checks, in order (R167); the first that fails gives the status. -/
def judgeRequest (code : Byte) (data : List Byte) (s : State) : Option Status :=
  match leastLength code.toNat with
  | none => some .unknownRequest
  | some n =>
    if data.length < n then some .tooShort
    else if inFlight s && !answeredInFlight code.toNat then some .busy
    else if needsSession code.toNat && !s.service.session then some .notOpen
    else none

/-- A request of the open session restarts the inactivity timer; [18]. -/
def restartInactivity (s : State) : State :=
  if s.service.session then { s with service.inactivityT := msTimer Config.inactivityMs } else s

/-- A request is discarded while a reply waits or the restart mark is set (R168, R177). -/
def discards (s : State) : Bool := !s.service.replies.isEmpty || s.service.restart != .clear

/-- A frame reaches the service unit (R167); [17]. -/
def serviceRequest (data : List Byte) (s : State) : State :=
  match data with
  | [] => s
  | code :: rest =>
    let tag := rest.headD 0
    let s := restartInactivity s
    if discards s then s
    else
      match judgeRequest code data s with
      | some st => answer code tag st [] s
      | none => carryOutRequest code tag data s

/-! ## Frames and request commands -/

/-- Whether a frame on a port goes to the service unit (01 R9). -/
def isRequest (s : State) (q : Port) (f : Frame) : Bool :=
  q == .c && f.fmt == s.tables.ports.reqFmt && f.id == s.tables.ports.reqId

/-- A frame is received (01 R9). -/
def receive (q : Port) (f : Frame) (s : State) : State :=
  if isRequest s q f then serviceRequest f.data s else framePath q f s

/-- FRAME_RECEIVED. A port that is OFF, in SLEEP or without power delivers no frame; what is no frame is a fault; [28]. -/
def execFrameReceived (q : Port) (f : Frame) (s : State) : Answer :=
  if f.wf then happens (s.ports.get q).on (receive q f) s else .fault .notAFrame

/-- A request frame with these bytes is received on the C-port. -/
def request (data : List Byte) (s : State) : Answer := happens s.ports.c.on (serviceRequest data) s

/-- UNKNOWN_REQUEST. -/
def execUnknownRequest (code : Byte) (tag : Option Byte) (s : State) : Answer := request (code :: tag.toList) s

/-- OPEN_CONFIG. -/
def execOpenConfig (tag : Byte) (s : State) : Answer := request [0x01, tag] s

/-- CLOSE_CONFIG. -/
def execCloseConfig (tag : Byte) (s : State) : Answer := request [0x02, tag] s

/-- READ_ITEM. -/
def execReadItem (tag kind index chunk : Byte) (s : State) : Answer := request [0x03, tag, kind, index, chunk] s

/-- STAGE. -/
def execStage (tag offset d0 d1 d2 d3 : Byte) (s : State) : Answer := request [0x04, tag, offset, d0, d1, d2, d3] s

/-- A COMMIT of an item kind. -/
def commitRequest (k : Item) (tag index : Byte) (s : State) : Answer := request [0x05, tag, byteOf k.code, index] s

/-- COMMIT of MATCH. -/
def execCommitMatch (tag index : Byte) (s : State) : Answer := commitRequest .matchEntry tag index s

/-- COMMIT of SLOT. -/
def execCommitSlot (tag index : Byte) (s : State) : Answer := commitRequest .slot tag index s

/-- COMMIT of ROLE_MAP. -/
def execCommitRoleMap (tag index : Byte) (s : State) : Answer := commitRequest .roleMap tag index s

/-- COMMIT of PROFILE. -/
def execCommitProfile (tag index : Byte) (s : State) : Answer := commitRequest .profile tag index s

/-- COMMIT of CURVE. -/
def execCommitCurve (tag index : Byte) (s : State) : Answer := commitRequest .curve tag index s

/-- COMMIT of ARM_CONFIG. -/
def execCommitArmConfig (tag index : Byte) (s : State) : Answer := commitRequest .armConfig tag index s

/-- COMMIT of TEMPLATE. -/
def execCommitTemplate (tag index : Byte) (s : State) : Answer := commitRequest .template tag index s

/-- COMMIT of CHANNEL. -/
def execCommitChannel (tag index : Byte) (s : State) : Answer := commitRequest .channel tag index s

/-- COMMIT of WINDOWS. -/
def execCommitWindows (tag index : Byte) (s : State) : Answer := commitRequest .windows tag index s

/-- COMMIT of DRIVE_CONFIG. -/
def execCommitDriveConfig (tag index : Byte) (s : State) : Answer := commitRequest .driveConfig tag index s

/-- COMMIT of SPRAY_CONFIG. -/
def execCommitSprayConfig (tag index : Byte) (s : State) : Answer := commitRequest .sprayConfig tag index s

/-- COMMIT of PORT_CONFIG. -/
def execCommitPortConfig (tag index : Byte) (s : State) : Answer := commitRequest .portConfig tag index s

/-- STORE. -/
def execStore (tag : Byte) (s : State) : Answer := request [0x06, tag] s

/-- RECALL. -/
def execRecall (tag : Byte) (s : State) : Answer := request [0x07, tag] s

/-- STATUS. -/
def execStatus (tag page : Byte) (s : State) : Answer := request [0x08, tag, page] s

/-- ACK_FAULTS. -/
def execAckFaults (tag : Byte) (s : State) : Answer := request [0x09, tag] s

/-- CHANNEL_CONTROL, action 0. -/
def execChannelControlEnable (tag channel : Byte) (s : State) : Answer := request [0x0A, tag, channel, 0] s

/-- CHANNEL_CONTROL, action 1. -/
def execChannelControlDisable (tag channel : Byte) (s : State) : Answer := request [0x0A, tag, channel, 1] s

/-- CHANNEL_CONTROL, action 2. -/
def execChannelControlTrigger (tag channel : Byte) (s : State) : Answer := request [0x0A, tag, channel, 2] s

/-- RESTART. -/
def execRestart (tag : Byte) (s : State) : Answer := request [0x0B, tag] s

/-- CLEAR_VOLUME. -/
def execClearVolume (tag : Byte) (s : State) : Answer := request [0x0C, tag] s

/-- DROP_SENDERS. -/
def execDropSenders (tag slot : Byte) (s : State) : Answer := request [0x0D, tag, slot] s

/-- INACTIVITY_TIMER_EXPIRY (R170): the session closes without a reply. -/
def execInactivityTimerExpiry (s : State) : Answer := expires s.service.inactivityT closeSession s

end Sys2Proof.Machine
end

