-- ==== Sys2Proof/Machine/Dispatch.lean ====
section
/-! DEFINITION. exec: one arm per command, each one call of its meaning. -/

namespace Sys2Proof.Machine

def exec (i : Instr) (s : State) : Host.Outcome State Fault Refusal :=
  match i with
  | .frameReceived port frame => Sys2Proof.Machine.execFrameReceived port frame s
  | .frameSent port => Sys2Proof.Machine.execFrameSent port s
  | .waitingHolderPlaced port => Sys2Proof.Machine.execWaitingHolderPlaced port s
  | .linkLost port => Sys2Proof.Machine.execLinkLost port s
  | .linkRestored port => Sys2Proof.Machine.execLinkRestored port s
  | .pulseEdge ch dirHigh clock => Sys2Proof.Machine.execPulseEdge ch dirHigh clock s
  | .windowTimerExpiry ch => Sys2Proof.Machine.execWindowTimerExpiry ch s
  | .standstillTimerExpiry ch => Sys2Proof.Machine.execStandstillTimerExpiry ch s
  | .disagreementTimerExpiry => Sys2Proof.Machine.execDisagreementTimerExpiry s
  | .lossTimerExpiry ch => Sys2Proof.Machine.execLossTimerExpiry ch s
  | .returnTimerExpiry ch => Sys2Proof.Machine.execReturnTimerExpiry ch s
  | .freshnessTimerExpiry slot => Sys2Proof.Machine.execFreshnessTimerExpiry slot s
  | .senderTimerExpiry place => Sys2Proof.Machine.execSenderTimerExpiry place s
  | .silentTimeEnd place => Sys2Proof.Machine.execSilentTimeEnd place s
  | .governorPeriod => Sys2Proof.Machine.execGovernorPeriod s
  | .overspeedTimeLimit => Sys2Proof.Machine.execOverspeedTimeLimit s
  | .armPeriod => Sys2Proof.Machine.execArmPeriod s
  | .motionTimerExpiry arm => Sys2Proof.Machine.execMotionTimerExpiry arm s
  | .floatTimerExpiry arm => Sys2Proof.Machine.execFloatTimerExpiry arm s
  | .waitTimerExpiry arm => Sys2Proof.Machine.execWaitTimerExpiry arm s
  | .allocatorPeriod => Sys2Proof.Machine.execAllocatorPeriod s
  | .sprayPeriod => Sys2Proof.Machine.execSprayPeriod s
  | .lingerEnd => Sys2Proof.Machine.execLingerEnd s
  | .intervalTimerExpiry ch => Sys2Proof.Machine.execIntervalTimerExpiry ch s
  | .sendCompletion ch => Sys2Proof.Machine.execSendCompletion ch s
  | .cutoffActive => Sys2Proof.Machine.execCutoffActive s
  | .cutoffInactive => Sys2Proof.Machine.execCutoffInactive s
  | .releaseTimerExpiry => Sys2Proof.Machine.execReleaseTimerExpiry s
  | .detectionTimeExpiry kind subject => Sys2Proof.Machine.execDetectionTimeExpiry kind subject s
  | .ignitionShutdown => Sys2Proof.Machine.execIgnitionShutdown s
  | .shutdownTimerExpiry => Sys2Proof.Machine.execShutdownTimerExpiry s
  | .sleepEntry => Sys2Proof.Machine.execSleepEntry s
  | .wake => Sys2Proof.Machine.execWake s
  | .coldStart => Sys2Proof.Machine.execColdStart s
  | .serviceRestart => Sys2Proof.Machine.execServiceRestart s
  | .inactivityTimerExpiry => Sys2Proof.Machine.execInactivityTimerExpiry s
  | .storePageStep readsBack => Sys2Proof.Machine.execStorePageStep readsBack s
  | .storeCompletion => Sys2Proof.Machine.execStoreCompletion s
  | .recallPageRead => Sys2Proof.Machine.execRecallPageRead s
  | .recallCompletion => Sys2Proof.Machine.execRecallCompletion s
  | .unknownRequest code tag => Sys2Proof.Machine.execUnknownRequest code tag s
  | .openConfig tag => Sys2Proof.Machine.execOpenConfig tag s
  | .closeConfig tag => Sys2Proof.Machine.execCloseConfig tag s
  | .readItem tag kind index chunk => Sys2Proof.Machine.execReadItem tag kind index chunk s
  | .stage tag offset d0 d1 d2 d3 => Sys2Proof.Machine.execStage tag offset d0 d1 d2 d3 s
  | .commitMatch tag index => Sys2Proof.Machine.execCommitMatch tag index s
  | .commitSlot tag index => Sys2Proof.Machine.execCommitSlot tag index s
  | .commitRoleMap tag index => Sys2Proof.Machine.execCommitRoleMap tag index s
  | .commitProfile tag index => Sys2Proof.Machine.execCommitProfile tag index s
  | .commitCurve tag index => Sys2Proof.Machine.execCommitCurve tag index s
  | .commitArmConfig tag index => Sys2Proof.Machine.execCommitArmConfig tag index s
  | .commitTemplate tag index => Sys2Proof.Machine.execCommitTemplate tag index s
  | .commitChannel tag index => Sys2Proof.Machine.execCommitChannel tag index s
  | .commitWindows tag index => Sys2Proof.Machine.execCommitWindows tag index s
  | .commitDriveConfig tag index => Sys2Proof.Machine.execCommitDriveConfig tag index s
  | .commitSprayConfig tag index => Sys2Proof.Machine.execCommitSprayConfig tag index s
  | .commitPortConfig tag index => Sys2Proof.Machine.execCommitPortConfig tag index s
  | .store tag => Sys2Proof.Machine.execStore tag s
  | .recall tag => Sys2Proof.Machine.execRecall tag s
  | .status tag page => Sys2Proof.Machine.execStatus tag page s
  | .ackFaults tag => Sys2Proof.Machine.execAckFaults tag s
  | .channelControlEnable tag channel => Sys2Proof.Machine.execChannelControlEnable tag channel s
  | .channelControlDisable tag channel => Sys2Proof.Machine.execChannelControlDisable tag channel s
  | .channelControlTrigger tag channel => Sys2Proof.Machine.execChannelControlTrigger tag channel s
  | .restart tag => Sys2Proof.Machine.execRestart tag s
  | .clearVolume tag => Sys2Proof.Machine.execClearVolume tag s
  | .dropSenders tag slot => Sys2Proof.Machine.execDropSenders tag slot s
  | .powerLoss => Sys2Proof.Machine.execPowerLoss s

end Sys2Proof.Machine
end

