-- ==== Sys2Proof/Machine/Due.lean ====
section
/-! DEFINITION. The model's own idle step (an empty queue): what is due is taken, one event at a time, in an order the
free value chooses; when nothing is due one µs passes. DESIGN CHOICE [1], [2]. -/

namespace Sys2Proof.Machine

/-- A timer has run out. -/
def Timer.due (t : Timer) : Bool := t == some 0

/-- A command when its timer has run out. -/
def dueIf (t : Timer) (i : Instr) : List Instr := if t.due then [i] else []

/-- The end of the page step or page read in progress. Whether the page reads back is a free value; [6]. -/
def dueStore (s : State) : List Instr :=
  match s.store.op with
  | .idle => []
  | .storing r =>
    dueIf r.timer (if Config.pageReadsBack s.choices then if r.page = 0 then .storeCompletion else .storePageStep true
                   else .storePageStep false)
  | .recalling r => dueIf r.timer (if r.page < recordPages r.length then .recallPageRead else .recallCompletion)

/-- What is due of a sender record. -/
def dueSender (s : State) (i : Fin 24) : List Instr :=
  match s.senders[i] with
  | none => []
  | some r => dueIf r.timer (.senderTimerExpiry i) ++ dueIf (silentLeft s r) (.silentTimeEnd i)

/-- What is due of a capture channel. -/
def dueCapture (s : State) (ch : CapCh) : List Instr :=
  let r := s.capture.get ch
  dueIf r.windowT (.windowTimerExpiry ch) ++ dueIf r.standstillT (.standstillTimerExpiry ch)
  ++ dueIf r.lossT (.lossTimerExpiry ch) ++ dueIf r.returnT (.returnTimerExpiry ch)

/-- What is due of an arm. -/
def dueArm (s : State) (a : Arm) : List Instr :=
  let r := s.arms.get a
  dueIf r.motionT (.motionTimerExpiry a) ++ dueIf r.floatT (.floatTimerExpiry a) ++ dueIf r.waitT (.waitTimerExpiry a)

/-- Everything that is due. -/
def dueEvents (s : State) : List Instr :=
  dueIf s.shutdown.timer .shutdownTimerExpiry ++ dueStore s
  ++ (allFin 48).flatMap (fun n => dueIf s.slots[n].timer (.freshnessTimerExpiry n))
  ++ (allFin 24).flatMap (dueSender s)
  ++ dueCapture s .a ++ dueCapture s .b ++ dueIf s.capture.disagreeT .disagreementTimerExpiry
  ++ dueIf s.gov.timer .governorPeriod ++ dueIf s.lift.timer .armPeriod ++ allArms.flatMap (dueArm s)
  ++ dueIf s.alloc.timer .allocatorPeriod ++ dueIf s.spray.timer .sprayPeriod
  ++ (allFin 6).flatMap (fun ch => dueIf s.channels[ch].timer (.intervalTimerExpiry ch))
  ++ dueIf s.faults.releaseT .releaseTimerExpiry
  ++ s.faults.unconfirmed.flatMap (fun u => dueIf u.timer (.detectionTimeExpiry u.kind u.subject))
  ++ dueIf s.service.inactivityT .inactivityTimerExpiry

/-- One of several due commands, as the free value chooses. -/
def pickDue (n : Nat) (l : List Instr) : Option Instr := l[Config.tieOrder n % l.length]?

/-- The idle step of the running part. -/
def idle (s : State) : Answer :=
  if s.power = .running then
    match pickDue s.choices (dueEvents s) with
    | some i => exec i { s with choices := s.choices + 1 }
    | none => .next (passTime 1 s)
  else .next s

/-- Put a command at the front of the queue. -/
def State.push (s : State) (i : Instr) : State := { s with pending := i :: s.pending }

end Sys2Proof.Machine
end

