-- ==== Sys2Proof/Safety.lean ====
section
/-! DEFINITION. The predicates and shapes the statements use: how an event opens, the invariants of the part, what a
request finds and what its reply leaves. -/

namespace Sys2Proof.Machine

/-! ## How an event opens -/

/-- The state in which an event begins: the marks of the event before are clear. -/
def State.opened (s : State) : State := { s with ev := .none }

/-- The state in which the expiry of a timer with `r` µs left is taken: time has run on to it. -/
def State.openedAt (r : Nat) (s : State) : State := (advance r s).opened

/-- The command is taken as an event of the running part: it answers the end of the event (10 R161, 09 R147) on a state
of which `post` holds. -/
def Completes (c : Instr) (s : State) (post : State → Prop) : Prop := ∃ u, exec c s = .next (finish u) ∧ post u

/-! ## Invariants -/

/-- Between events of the running part the published level is what the fault list and the latch give (10 R161). -/
def LevelStands (s : State) : Prop := s.power = .running → s.faults.level = s.faults.formed

/-- Between events no mark of an event is left. -/
def MarksClear (s : State) : Prop := s.ev = .none

/-- The record pages are in canonical form. -/
def RecordPagesOk (s : State) : Prop := Memory.wf s.nvm.cells = true

/-- A port unit between events: at most 12 records (01 R3), none while OFF (R7), and the link holds one of them exactly
while there is one (R5). -/
def PortUnit.ok (p : PortUnit) : Prop :=
  p.queue.length ≤ Config.queuePlaces
  ∧ (p.on = false → p.queue = [])
  ∧ (p.queue = [] → p.offered = none)
  ∧ (p.queue ≠ [] → ∃ r ∈ p.queue, p.offered = some r.order)

/-- Both port units. -/
def QueuesOk (s : State) : Prop := s.ports.c.ok ∧ s.ports.b.ok

/-- Every channel's run is one that a COMMIT accepts (09 R145): 1 to 8 templates, the last of them at most template 31;
and the channel's position is that of a template of the run (09 R146, R149). -/
def RunsOk (s : State) : Prop :=
  ∀ ch : Fin 6,
    let cfg := s.tables.channels[ch]
    let c := s.channels[ch]
    1 ≤ cfg.runLen ∧ cfg.runLen ≤ 8 ∧ cfg.runStart + cfg.runLen ≤ 32
    ∧ cfg.runStart ≤ c.position ∧ c.position < cfg.runStart + cfg.runLen

/-- Every slot's configuration is one that a COMMIT accepts (02 R28) as far as its range goes, and what the slot and its
sender records hold lies in that range (02 R22, R23, R31); a sender record serves the slot its match entry names. -/
def SlotRangesOk (s : State) : Prop :=
  (∀ n : Fin 48, (s.tables.slots[n]).min ≤ (s.tables.slots[n]).dflt ∧ (s.tables.slots[n]).dflt ≤ (s.tables.slots[n]).max
    ∧ 1 ≤ (s.tables.slots[n]).minFresh
    ∧ (s.tables.slots[n]).min ≤ (s.slots[n]).last ∧ (s.slots[n]).last ≤ (s.tables.slots[n]).max)
  ∧ ∀ (i : Fin 24) (r : SenderRec), s.senders[i] = some r →
      (∀ v, (s.tables.entries[r.entry]).valuePick = some v → v.slot = r.slot)
      ∧ ∀ x, r.last = some x → (s.tables.slots[r.slot]).min ≤ x ∧ x ≤ (s.tables.slots[r.slot]).max

/-- The governor record agrees with its state (05 R68, R69, R84): at rest in NEUTRAL and HELD, its direction that of
travel, the pump stroke of the direction's sign and within ±1,000, cruise in FORWARD only; it is HELD while the level is 3
or a session is open; and no profile is pending that is active (04 R58). -/
def GovernorOk (s : State) : Prop :=
  (∀ p : Fin 4, (s.tables.profiles[p]).cap ≤ 1000)
  ∧ (s.gov.state = .neutral ∨ s.gov.state = .held → s.gov.dir = 0 ∧ s.gov.v = 0 ∧ s.gov.p = 0 ∧ s.gov.i = 0)
  ∧ (s.gov.state = .forward → s.gov.dir = 1) ∧ (s.gov.state = .reverse → s.gov.dir = -1)
  ∧ (s.gov.state = .stopping → s.gov.dir = 1 ∨ s.gov.dir = -1)
  ∧ (∃ m : Nat, m ≤ 1000 ∧ s.gov.p = s.gov.dir * m)
  ∧ (s.gov.cruise ≠ none → s.gov.state = .forward)
  ∧ (s.service.session = true → s.gov.state = .held) ∧ (s.faults.level = 3 → s.gov.state = .held)
  ∧ s.selector.pending ≠ some s.selector.active

/-- The lift circuit agrees with the arms (06 R88, R95, R96): the holder is the one arm that moves, the queue holds each
waiting arm once, at most two, those that wait to lift first; only the holder's motion timer runs, and an arm that is not
fitted is STOWED. -/
def LiftCircuitOk (s : State) : Prop :=
  s.lift.queue.length ≤ 2 ∧ s.lift.queue.Nodup
  ∧ (∀ a, s.lift.holder = some a ↔ (s.arms.get a).state = .lowering ∨ (s.arms.get a).state = .lifting)
  ∧ (∀ a, a ∈ s.lift.queue ↔ (s.arms.get a).state = .waitDown ∨ (s.arms.get a).state = .waitUp)
  ∧ s.lift.queue.Pairwise (fun a b => (s.arms.get b).state = .waitUp → (s.arms.get a).state = .waitUp)
  ∧ (∀ a, (s.arms.get a).motionT ≠ none → s.lift.holder = some a)
  ∧ (∀ a, (s.armCfg a).fitted = false → (s.arms.get a).state = .stowed)

/-- The fault list (10 R157, R158, R161): the aggregate, and only it, is of kind FAULT_LIST_FULL, no two general records
have the same kind and subject, and every entry order has been given. -/
def FaultListOk (s : State) : Prop :=
  (∀ r, s.faults.aggregate = some r → r.kind = .faultListFull ∧ r.subject = 0)
  ∧ (∀ (i : Fin 15) (r : FaultRec), s.faults.places[i] = some r → r.kind ≠ .faultListFull)
  ∧ (∀ (i j : Fin 15) (r q : FaultRec), s.faults.places[i] = some r → s.faults.places[j] = some q →
      r.kind = q.kind → r.subject = q.subject → i = j)
  ∧ (∀ r, s.faults.aggregate = some r → r.merged.Nodup ∧ ∀ k n, (k, n) ∈ r.merged → s.faults.find k n = none)
  ∧ (∀ r ∈ s.faults.records, r.order < s.faults.nextOrder)

/-- No two fault records have the same entry order (10 R157). -/
def FaultOrdersOk (s : State) : Prop :=
  s.faults.records.Pairwise (fun r q => r.order ≠ q.order) ∧ ∀ r ∈ s.faults.records, r.order < s.faults.nextOrder

/-- Speed capture stands as its last update left it (03 R47 to R51): S is the combination of the usable channels, the
disagreement flag and SPEED_NONE follow them, and a loss or return timer runs only while its test holds. -/
def CaptureJudged (s : State) : Prop :=
  let on (ch : CapCh) : Prop := (s.tables.drive.cap ch).fitted = true ∧ (s.capture.get ch).status ≠ .lost
  let a := s.capture.a.speed
  let b := s.capture.b.speed
  let close : Prop := (a - b).natAbs ≤ max a.natAbs b.natAbs / 10 + 50
  (on .a → on .b → close → s.capture.s = Int.tdiv (a + b) 2)
  ∧ (on .a → on .b → ¬close → s.capture.s = if b.natAbs ≤ a.natAbs then a else b)
  ∧ (on .a → ¬on .b → s.capture.s = a) ∧ (¬on .a → on .b → s.capture.s = b) ∧ (¬on .a → ¬on .b → s.capture.s = 0)
  ∧ (s.capture.disagree = true ↔ on .a ∧ on .b ∧ ¬close)
  ∧ (s.capture.disagree = false → s.capture.disagreeT = none ∧ s.capture.disagreeBegun = false)
  ∧ (s.capture.noneBegun = true ↔ ¬on .a ∧ ¬on .b)
  ∧ ∀ ch, ((s.capture.get ch).lossT ≠ none →
        (s.tables.drive.cap ch).fitted = true ∧ (s.capture.get ch).status = .standstill ∧ on (otherCap ch)
        ∧ 500 < (s.capture.get (otherCap ch)).speed.natAbs)
      ∧ ((s.capture.get ch).returnT ≠ none →
        (s.capture.get ch).status = .lost ∧ (s.capture.get ch).measuring = true ∧ on (otherCap ch) ∧ close)

/-! ## Frames -/

/-- A frame that reaches the frame path (01 R9): the part runs, the port is ON, the frame is a frame, and it is no
service request. -/
def FrameOnPath (q : Port) (f : Frame) (s : State) : Prop :=
  s.power = .running ∧ (s.ports.get q).on = true ∧ f.wf = true ∧ isRequest s q f = false

/-! ## Sends -/

/-- The templates `run` can all be offered for a channel without a stall or a refusal (09 R151): each lies inside the
windows of its port, and each port that is ON has places for those of them that are its own. -/
def RunTaken (s : State) (run : List Nat) : Prop :=
  (∀ n ∈ run, insideWindows s (s.template n).port (s.template n).fmt (s.template n).id = true)
  ∧ ∀ q : Port, (s.ports.get q).on = true →
      (s.ports.get q).queue.length + run.countP (fun n => (s.template n).port == q) ≤ Config.queuePlaces

/-- How many frames of `run` enter a queue: those whose port is ON (09 R151). -/
def entering (s : State) (run : List Nat) : Nat := run.countP fun n => (s.ports.get (s.template n).port).on

/-- The frames of `run` are built and enter the queues of their ports one after another, those of an OFF port left out
(09 R150, R151); one that carries TOP_FAULT marks the record it names announced (R144). -/
def enterRun (ch : Fin 6) (run : List Nat) (s : State) : State :=
  run.foldl (fun s n =>
    let t := s.template n
    if (s.ports.get t.port).on then announceTop t (s.onPort t.port fun p => p.enter (buildFrame s t) (.channel ch))
    else s) s

/-- The send of channel `ch` is complete, no trigger being pending (09 R152, R153): the channel is IDLE, and a send
without a stop mark is counted unless the channel is continuous; at 0 the channel disables itself, is done, and with
notify set marks FAULT_CHANGE. -/
def sendEnded (ch : Fin 6) (s : State) : State :=
  let cfg := s.tables.channels[ch]
  let c := s.channels[ch]
  let counted : Bool := !c.stop && !cfg.continuous
  let ends : Bool := counted && decide (c.remaining - 1 = 0)
  { s with
    channels := s.channels.set ch { c with
      state := .idle, stop := false, remaining := if counted then c.remaining - 1 else c.remaining
      enable := if ends then false else c.enable, done := if ends then true else c.done }
    ev := { s.ev with faultChange := s.ev.faultChange || (ends && cfg.notify) } }

/-- A SEQUENCE send of channel `ch`, its record being `c`, offers the templates of its run from number `i` on in state
`w`, and `u` is what it leaves (09 R150, R151, R154): when the first `k` of them are taken, then either these were the last
and the position returns to the run start, or the next finds a full queue and the channel waits for that place, or the
next lies outside the windows and the channel is refused. -/
def RunOffered (ch : Fin 6) (c : ChanRun) (i k : Nat) (w u : State) : Prop :=
  let cfg := w.tables.channels[ch]
  let v := enterRun ch (List.range' i k) w
  let out := c.out + entering w (List.range' i k)
  let n := i + k
  let t := w.template n
  let p := v.ports.get t.port
  let inside : Prop := insideWindows w t.port t.fmt t.id = true
  RunTaken w (List.range' i k) →
    (n = cfg.runStart + cfg.runLen →
      u = { v with channels := w.channels.set ch { c with state := .sending, out := out, position := cfg.runStart } })
    ∧ (n < cfg.runStart + cfg.runLen → inside → p.on = true → p.full = true →
      u = { v with
        channels := w.channels.set ch { c with state := .stalled, awaited := some n, out := out, position := n }
        ports := v.ports.set t.port { p with holders := p.holders ++ [.channel ch] } })
    ∧ (n < cfg.runStart + cfg.runLen → ¬inside →
      u = { reportOnce .sendWindow ch.val 1 v with
        channels := w.channels.set ch { c with state := .sending, out := out, position := n, enable := false
                                               pending := false, stop := true } })

/-- The send of channel `ch`, whose record is `c` once its awaited frame has been placed or counted, goes on from state `w`
and leaves `v` (09 R149 to R151): a set stop mark keeps the position and offers nothing, a SINGLE send moves the position,
and a SEQUENCE send offers the rest of its run. -/
def SendGoesOn (ch : Fin 6) (c : ChanRun) (w v : State) : Prop :=
  let cfg := w.tables.channels[ch]
  let last := cfg.runStart + cfg.runLen
  let done (i : Nat) : State := { w with channels := w.channels.set ch { c with position := i } }
  (c.stop = true → v = done c.position)
  ∧ (c.stop = false → cfg.sequence = false →
      v = done (if c.position + 1 < last then c.position + 1 else cfg.runStart))
  ∧ (c.stop = false → cfg.sequence = true → cfg.runStart ≤ c.position → c.position < last →
      (c.position + 1 = last → v = done cfg.runStart)
      ∧ ∀ k, c.position + 1 < last → c.position + 1 + k ≤ last → RunOffered ch c (c.position + 1) k w v)

/-- The free place of port `q` in state `w` is handed to the holder that has waited longest, which leaves `v` (01 R6): the
service unit puts in its first reply, under the format and identifier it was offered under, and offers the next, if
any; a channel builds the frame it awaits, and its send goes on. -/
def PlaceHanded (q : Port) (w v : State) : Prop :=
  ∀ h rest, (w.ports.get q).holders = h :: rest →
    let p : PortUnit := { (w.ports.get q) with holders := rest }
    (h = .service → q = .c → .service ∉ rest → ∀ r fmt id, r.offered = some (fmt, id) →
      let placed : PortUnit := p.enter ⟨fmt, id, r.data⟩ .service
      let mark : RestartMark := if r.isRestart then .queued p.nextOrder else w.service.restart
      (w.service.replies = [r] →
        v = { w with ports := w.ports.set q placed, service := { w.service with replies := [], restart := mark } })
      ∧ (∀ r', w.service.replies = [r, r'] → r'.offered = none → placed.full = true →
        v = { w with
          ports := w.ports.set q { placed with holders := rest ++ [.service] }
          service := { w.service with
            replies := [{ r' with offered := some (w.tables.ports.repFmt, w.tables.ports.repId) }], restart := mark } }))
    ∧ (∀ ch n, h = .channel ch → w.channels[ch].awaited = some n →
      SendGoesOn ch { w.channels[ch] with state := .sending, awaited := none, out := w.channels[ch].out + 1 }
        (announceTop (w.template n) { w with
          ports := w.ports.set q (p.enter (buildFrame w (w.template n)) (.channel ch)) }) v)

/-- What a waiting holder of a lost port awaits is counted as sent (01 R7): the service unit's replies leave its list, and a
channel's send goes on without the frame. -/
def HolderReleased (h : Holder) (w v : State) : Prop :=
  match h with
  | .service =>
    v = { w with service := { w.service with
            replies := w.service.replies.drop 2
            restart := if (w.service.replies.take 2).any (·.isRestart) then .left else w.service.restart } }
  | .channel ch => SendGoesOn ch { w.channels[ch] with state := .sending, awaited := none } w v

/-- The waiting holders are released one after another, the level being formed after each. -/
def HoldersReleased : List Holder → State → State → Prop
  | [], w, v => v = w
  | h :: rest, w, v => ∃ x, HolderReleased h w x ∧ HoldersReleased rest (formLevel x) v

/-- The sends that are complete in `v` complete, which leaves `u` (09 R152, R153): each is ended as `sendEnded` says. Stated
where none has a trigger pending and the count of none triggers a chain target. -/
def SendsCompleted (v u : State) : Prop :=
  let complete (ch : Fin 6) : Prop := v.channels[ch].state = .sending ∧ v.channels[ch].out = 0
  (∀ ch, complete ch → v.channels[ch].pending = false
    ∧ (v.channels[ch].stop = true ∨ (v.tables.channels[ch]).continuous = true ∨ (v.tables.channels[ch]).chain = none)) →
  (∀ ch : Fin 6, (complete ch → u.channels[ch] = (sendEnded ch v).channels[ch]
      ∧ ((sendEnded ch v).ev.faultChange = true → u.ev.faultChange = true))
    ∧ (¬complete ch → u.channels[ch] = v.channels[ch]))
  ∧ u = { formLevel v with channels := u.channels, choices := u.choices
                           ev := { (formLevel v).ev with faultChange := u.ev.faultChange } }
  ∧ (u.ev.faultChange = true → (formLevel v).ev.faultChange = true
      ∨ ∃ ch, complete ch ∧ (sendEnded ch v).ev.faultChange = true)

/-! ## Service requests -/

/-- What a request finds when it is judged at once and its reply finds a place: the part runs, the C-port is ON with a
place free, no reply waits, no restart is marked and no operation is in flight. -/
def ServiceReady (s : State) : Prop :=
  s.power = .running ∧ s.ports.c.on = true ∧ s.ports.c.full = false ∧ s.service.replies = []
  ∧ s.service.restart = .clear ∧ s.store.op = .idle

/-- A request is taken: the inactivity timer of an open session is restarted (11 R167). -/
def State.taken (s : State) : State :=
  { s with ev := .none
           service.inactivityT := if s.service.session then msTimer Config.inactivityMs else s.service.inactivityT }

/-- A reply enters the C-port queue under the reply identifier in force, the effect of its request having been made
(11 R168). -/
def replied (code tag : Byte) (st : Status) (data : List Byte) (s : State) : State :=
  s.onPort .c fun p => p.enter
    { fmt := s.tables.ports.repFmt, id := s.tables.ports.repId, data := replyBytes code tag st data } .service

/-- A staged record's first bytes as a request finds them. -/
def stagedBytes (s : State) (k : Nat) : List Byte := s.service.stage.toList.take k

end Sys2Proof.Machine
end

