-- ==== Sys2Proof/Certificates/Slice0/Obligations.lean ====
section
/-! DEFINITION. The statements for the provers, from the spec's numbered rules; OBLIGATIONS.json lists them. -/

open Sys2Proof Sys2Proof.Machine

/-! ## Steps and the end of an event -/

/-- A step takes the command at the front of the queue and runs it on the state with the queue's rest. -/
def Obligations.StepRunsFrontCommand : Prop :=
  ∀ (c : Instr) (rest : List Instr) (s : State),
    step { s with pending := c :: rest } = exec c { s with pending := rest }

/-- The end of an event of the running part leaves the published level at 3 while the latch is set and at the greatest
severity of the fault list otherwise (10 R161), clears the marks, and changes nothing but what the level's publication
and the send channels change; a state whose level stands and whose marks are clear it leaves as it is. That the level
is formed at the end of the event is log entry 14. -/
def Obligations.EventEndFormsLevel : Prop :=
  ∀ s : State,
    finish s = { s with faults := (finish s).faults, gov := (finish s).gov, arms := (finish s).arms,
                        lift := (finish s).lift, spray := (finish s).spray, channels := (finish s).channels,
                        ports := (finish s).ports, choices := (finish s).choices, ev := .none }
    ∧ (s.power = .running →
        ((finish s).faults.latch = true → (finish s).faults.level = 3)
        ∧ ((finish s).faults.latch = false →
            (∀ r ∈ (finish s).faults.records, r.severity ≤ (finish s).faults.level)
            ∧ ((finish s).faults.level = 0 ∨ ∃ r ∈ (finish s).faults.records, r.severity = (finish s).faults.level)))
    ∧ (s.faults.level = s.faults.formed → s.ev = .none → finish s = s)

/-! ## Invariants that every step keeps -/

/-- Reset meets the invariants below. What the manual leaves open at reset is log entry 3. -/
def Obligations.ResetMeetsInvariants : Prop :=
  LevelStands State.reset ∧ MarksClear State.reset ∧ RecordPagesOk State.reset ∧ QueuesOk State.reset
  ∧ SlotRangesOk State.reset ∧ GovernorOk State.reset ∧ LiftCircuitOk State.reset ∧ FaultListOk State.reset
  ∧ CaptureJudged State.reset ∧ RunsOk State.reset
  ∧ FaultOrdersOk State.reset

/-- Every step leaves the level of the running part at what the fault list and the latch give, and the marks clear. -/
def Obligations.StepKeepsLevel : Prop :=
  ∀ s t : State, LevelStands s → MarksClear s → step s = .next t → LevelStands t ∧ MarksClear t

/-- Every step keeps the canonical form of the record pages. -/
def Obligations.StepKeepsRecordPages : Prop :=
  ∀ s t : State, RecordPagesOk s → step s = .next t → RecordPagesOk t

/-- Every step keeps the transmit queues: at most 12 records, none while OFF, and a record offered while ON and not
empty (01 R3, R5, R7). And every step keeps the runs of the send channels: 1 to 8 templates up to template 31, the
position in the run (09 R145, R149). -/
def Obligations.StepKeepsQueues : Prop :=
  (∀ s t : State, QueuesOk s → step s = .next t → QueuesOk t)
  ∧ (∀ s t : State, RunsOk s → step s = .next t → RunsOk t)

/-- Every step keeps what slots and sender records hold within their slots' ranges. -/
def Obligations.StepKeepsSlotRanges : Prop :=
  ∀ s t : State, SlotRangesOk s → step s = .next t → SlotRangesOk t

/-- Every step keeps the governor record in agreement with its state, HELD at level 3 and while a session is open. -/
def Obligations.StepKeepsGovernor : Prop :=
  ∀ s t : State, GovernorOk s → step s = .next t → GovernorOk t

/-- Every step keeps one holder of the lift circuit and a queue of exactly the waiting arms. -/
def Obligations.StepKeepsLiftCircuit : Prop :=
  ∀ s t : State, LiftCircuitOk s → step s = .next t → LiftCircuitOk t

/-- Every step keeps the fault list free of two records of one kind and subject, and of two of one entry order. -/
def Obligations.StepKeepsFaultList : Prop :=
  (∀ s t : State, FaultListOk s → step s = .next t → FaultListOk t)
  ∧ (∀ s t : State, FaultOrdersOk s → step s = .next t → FaultOrdersOk t)

/-- Every step keeps S the combination of the usable channels, and the capture tests in agreement with it. -/
def Obligations.StepKeepsCapture : Prop :=
  ∀ s t : State, CaptureJudged s → step s = .next t → CaptureJudged t

/-! ## Restarts, shutdown, SLEEP and power (12) -/

/-- A cold start of an unpowered part (12 R183). Without a valid image, the CUTOFF line inactive and the IGN line
active, it leaves the reset state around the nonvolatile area and the queue it had: factory tables, STORE_INVALID at
severity 3, level 3 (the lines' levels are premises; what reset takes them to be is log entry 3). With a valid image
it runs on the image's tables with image valid set, cause COLD, volume 0, every slot NEVER at its default, the start
profile active, the governor HELD, and no condition held but those the restart itself reports. -/
def Obligations.ColdStart : Prop :=
  (∀ s : State, s.power = .unpowered → s.nvm.loadWhole = none → s.cutoffLine = false → s.ignLine = true →
     exec .coldStart s = .next { State.reset with nvm := s.nvm, choices := s.choices, pending := s.pending })
  ∧ (∀ (s : State) (t : Tables), s.power = .unpowered → s.nvm.loadWhole = some t →
       Completes .coldStart s fun u =>
         u.tables = t ∧ u.store = { imageValid := true, op := .idle } ∧ u.cause = .cold ∧ u.spray.volume = 0
         ∧ u.slots = t.slots.map SlotRun.restarted ∧ u.senders = Vector.replicate 24 none
         ∧ u.selector = { active := t.drive.startProfile, pending := none }
         ∧ u.gov.state = .held ∧ u.gov.v = 0 ∧ u.gov.p = 0
         ∧ u.ports = { c := PortUnit.fresh, b := PortUnit.fresh } ∧ u.service = Service.restarted
         ∧ (∀ k n, u.faults.holds k n = true → k = .speedNone ∨ k = .cutoff)
         ∧ u.faults.latch = s.cutoffLine ∧ u.nvm = s.nvm ∧ u.pending = s.pending ∧ u.power = .running)

/-- WAKE in SLEEP and a due SERVICE_RESTART restart the part: the tables, the image, image valid and the volume are
kept, the cause is WAKE or SERVICE, every slot is NEVER at its default, senders, queues, replies and the session are
as a restart sets them, the governor is HELD, and ignition shutdown starts at once when the IGN line is inactive. The
order of a restart's parts is log entry 7. The fault list is kept (R166): its records with their places, counts,
announced flags and entry orders, and each kept condition is given its detection time to be observed again, 1 µs
longer (log entry 20); a time of 0 is judged at once, so SENDER_TABLE_FULL and TX_FULL end. That is stated where the
list has a place for each condition the restart itself may report, and the shutdown that may follow at once ends an
arm's conditions. SERVICE_RESTART alone is log entry 25, one that is not due log entry 24. -/
def Obligations.WarmRestarts : Prop :=
  ∀ s : State,
    let restarted (k : Cause) (ign : Bool) (u : State) : Prop :=
      u.tables = s.tables ∧ u.nvm = s.nvm ∧ u.store = { imageValid := s.store.imageValid, op := .idle }
      ∧ u.spray.volume = s.spray.volume ∧ u.cause = k ∧ u.power = .running ∧ u.timeUs = 0
      ∧ u.slots = s.tables.slots.map SlotRun.restarted ∧ u.senders = Vector.replicate 24 none
      ∧ u.selector = { active := s.tables.drive.startProfile, pending := none }
      ∧ u.gov.state = .held ∧ u.gov.v = 0 ∧ u.gov.p = 0
      ∧ u.ports = { c := PortUnit.fresh, b := PortUnit.fresh } ∧ u.service = Service.restarted
      ∧ u.faults.latch = s.cutoffLine ∧ u.ignLine = ign
      ∧ u.shutdown = (if ign then { hold := false, timer := none } else { hold := true, timer := some 1000000 })
      ∧ u.pending = s.pending
    let detection (k : Kind) (n : Nat) : Option Nat := match k with
      | .signalStale | .signalDisagree => some (s.tables.slots[Fin.ofNat 48 n]).timeout
      | .senderTableFull | .speedNone | .txFull | .cutoff | .storeInvalid => some 0
      | .engineLow => some 10
      | .sprayDry => some 50
      | .tankLow => some (match s.tables.roles[Role.tankLevel.place] with
          | some i => s.tables.slots[i].timeout + 50
          | none => 50)
      | .speedDisagree => some 200
      | .portLost | .overspeed => some 500
      | .speedChannelLost => some 1000
      | .armObstructed => some (s.tables.arms.arms.get (match n with | 0 => .sl | 1 => .sr | _ => .mb)).floatLimit
      | .liftStarved => some 20000
      | .armStuck | .sendWindow | .faultListFull => none
    let room : Prop := 2 ≤ s.faults.places.toList.countP (·.isNone)
      ∨ (s.cutoffLine = false ∧ (s.tables.drive.capA.fitted = true ∨ s.tables.drive.capB.fitted = true))
    let kept (ign : Bool) (u : State) : Prop :=
      let stays (k : Kind) (n : Nat) : Prop := detection k n ≠ some 0
        ∧ (ign = true ∨ (k ≠ .armObstructed ∧ k ≠ .liftStarved))
      FaultListOk s → room →
        (∀ (i : Fin 15) r, s.faults.places[i] = some r → stays r.kind r.subject → u.faults.places[i] = some r)
        ∧ (∀ (i : Fin 15) r, s.faults.places[i] = some r → r.latched = false → r.kind = .senderTableFull ∨ r.kind = .txFull →
            u.faults.holds r.kind r.subject = false)
        ∧ (∀ a, s.faults.aggregate = some a → ∃ b, u.faults.aggregate = some b
            ∧ b.count = a.count ∧ b.order = a.order ∧ b.firstSeen = a.firstSeen
            ∧ ∀ k n, stays k n → (k, n) ∈ a.merged → (k, n) ∈ b.merged)
        ∧ (∀ k n d, s.faults.holds k n = true → stays k n → detection k n = some d →
            ⟨k, n, some (1000 * d + 1)⟩ ∈ u.faults.unconfirmed)
        ∧ (∀ x ∈ u.faults.unconfirmed, s.faults.holds x.kind x.subject = true
            ∧ ∃ d, detection x.kind x.subject = some d ∧ 0 < d ∧ x.timer = some (1000 * d + 1))
    (s.power = .sleep → Completes .wake s fun u => restarted .wake true u ∧ kept true u)
    ∧ (s.power ≠ .sleep → exec .wake s = .next { s with ignLine := true })
    ∧ (s.power = .running → s.service.restart = .left → s.shutdown.hold = false →
        Completes .serviceRestart s fun u => restarted .service s.ignLine u ∧ kept s.ignLine u)
    ∧ (s.power ≠ .running ∨ s.service.restart ≠ .left ∨ s.shutdown.hold = true →
        exec .serviceRestart s = .next s)

/-- The IGN line becoming inactive while the part runs without the shutdown hold starts ignition shutdown: the hold,
the 1,000 ms timer, the governor HELD at rest, every fitted arm FROZEN with its commands 0, no holder and no queue,
every bank closed and the duty 0 when one was open (R184). Otherwise only the line changes. -/
def Obligations.IgnitionShutdownStarts : Prop :=
  ∀ s : State, s.ignLine = true →
    (s.power = .running → s.shutdown.hold = false →
      Completes .ignitionShutdown s fun u =>
        u = { s.opened with ignLine := false, shutdown := { hold := true, timer := some 1000000 }, gov := u.gov,
                            arms := u.arms, lift := u.lift, spray := u.spray, faults := u.faults, ev := u.ev }
        ∧ u.gov.state = .held ∧ u.gov.dir = 0 ∧ u.gov.v = 0 ∧ u.gov.p = 0 ∧ u.gov.i = 0 ∧ u.gov.cruise = none
        ∧ (∀ a, (s.armCfg a).fitted = true →
            (u.arms.get a).state = .frozen ∧ (u.arms.get a).valve = 0 ∧ (u.arms.get a).pressure = 0
            ∧ (u.arms.get a).rpm = 0 ∧ (u.arms.get a).scaled = 0 ∧ (u.arms.get a).motionT = none
            ∧ (u.arms.get a).floatT = none ∧ (u.arms.get a).waitT = none)
        ∧ (∀ a, (s.armCfg a).fitted = false → u.arms.get a = s.arms.get a)
        ∧ u.lift = { holder := none, queue := [], timer := s.lift.timer }
        ∧ (∀ a, (u.spray.banks.get a).isOpen = false)
        ∧ (∀ a, (s.spray.banks.get a).isOpen = true → u.spray.duty = 0)
        ∧ u.spray.volume = s.spray.volume)
    ∧ (s.power ≠ .running ∨ s.shutdown.hold = true → exec .ignitionShutdown s = .next { s with ignLine := false })

/-- SLEEP is entered at the expiry of the shutdown timer, or at SLEEP_ENTRY when it has expired, with no operation in
flight; queues, offered records, holders and replies are emptied, every job's timer stops, and the tables, the image,
the volume, the fault list and the restart mark are kept. With the IGN line active a wake restart follows at once
(R184). With an operation in flight the expiry alone is taken. SLEEP after the whole of the event that makes it due is
log entry 48, SLEEP_ENTRY alone log entry 25. An expiry command brings time forward to the expiry (log entry 1). -/
def Obligations.SleepIsEntered : Prop :=
  ∀ s : State, s.power = .running → s.shutdown.hold = true →
    let asleep (u : State) : Prop :=
      u.power = .sleep ∧ u.shutdown = { hold := false, timer := none } ∧ u.ev = .none
      ∧ (∀ q, (u.ports.get q).queue = [] ∧ (u.ports.get q).offered = none ∧ (u.ports.get q).holders = []
          ∧ (u.ports.get q).on = (s.ports.get q).on)
      ∧ u.service.replies = [] ∧ u.service.deferred = none ∧ u.service.restart = s.service.restart
      ∧ u.gov.timer = none ∧ u.lift.timer = none ∧ u.alloc.timer = none ∧ u.spray.timer = none
      ∧ u.tables = s.tables ∧ u.nvm = s.nvm ∧ u.store.imageValid = s.store.imageValid
      ∧ u.spray.volume = s.spray.volume ∧ u.cause = s.cause ∧ u.pending = s.pending
    (∀ r, s.shutdown.timer = some r → s.store.op = .idle → s.ignLine = false → s.faults.level = s.faults.formed →
      ∃ u, exec .shutdownTimerExpiry s = .next u ∧ asleep u ∧ u.faults.records = s.faults.records)
    ∧ (s.shutdown.timer = none → s.store.op = .idle → s.ignLine = false →
        ∃ u, exec .sleepEntry s = .next u ∧ asleep u ∧ u.faults.records = s.faults.records)
    ∧ (s.shutdown.timer = none → s.store.op = .idle → s.ignLine = true →
        ∃ u, asleep u ∧ exec .sleepEntry s = .next (wakeNow u))
    ∧ (∀ r, s.shutdown.timer = some r → s.store.op ≠ .idle →
        Completes .shutdownTimerExpiry s fun u => u = { s.openedAt r with shutdown.timer := none })

/-- POWER_LOSS stops the part where it stands: a STORE in flight is stopped, its header blank or what the failed
header write left, so the image is invalid; a RECALL in flight leaves the image as it was (R181, R182). What else a
loss of power leaves is log entry 23, what it leaves of the page being written log entry 6. -/
def Obligations.PowerLossStopsThePart : Prop :=
  ∀ s : State, s.power ≠ .unpowered →
    ∃ u, exec .powerLoss s = .next u ∧ u.power = .unpowered ∧ u.store.op = .idle
      ∧ u.tables = s.tables ∧ u.pending = s.pending
      ∧ ((∀ r, s.store.op ≠ .storing r) → u = { s with power := .unpowered, store.op := .idle })
      ∧ (∀ r, s.store.op = .storing r → r.page = 0 ∨ s.nvm.header = .blank → u.nvm.loadWhole = none)

/-! ## Port units and the frame path (01) -/

/-- The priority of two records of a queue (R4): the lower key first, a standard record before an extended one of
equal key, the lower 29-bit identifier of two extended ones, and the lower entry order of two of the same format and
identifier; origin does not enter. -/
def Obligations.QueuePriority : Prop :=
  ∀ a b : TxRec,
    let key (r : TxRec) : Nat := if r.frame.fmt = .std then r.frame.id.toNat else r.frame.id.toNat / 262144
    (a.before b = true ↔
      key a < key b
      ∨ (key a = key b ∧
          ((a.frame.fmt = .std ∧ b.frame.fmt = .ext)
           ∨ (a.frame.fmt = .ext ∧ b.frame.fmt = .ext ∧ a.frame.id.toNat < b.frame.id.toNat)
           ∨ (a.frame.fmt = b.frame.fmt ∧ a.frame.id = b.frame.id ∧ a.order < b.order))))

/-- FRAME_RECEIVED. The entry that wins is the valid one of lowest index whose port selector, format, identifier under
the mask and least length match (R10). An operand that is no frame is a fault, and every frame is taken (log entry
28). On the frame path a frame that no entry wins under default PASS, or that a PASS entry wins, is offered unchanged
to the other port (R3, R8, R10, R13): an OFF port loses it without a report, a full queue drops it with a TX_FULL
occurrence, and otherwise it enters the queue with the next entry order and TX_FULL ends. Default DROP and a DROP
entry forward nothing. Nothing else changes. A TAKE_PASS entry in DIRECT mode applies its picks and then offers the
frame unchanged in the same way, a REWRITE entry the frame with its rewrite place filled from what then reads (R13,
R17). An acknowledgement the picks bring comes before the forward (log entry 37). A frame on a port that is OFF, or of
a part that does not run, changes nothing (log entry 24). -/
def Obligations.ReceivedFrames : Prop :=
  (∀ (q : Port) (f : Frame) (s : State),
     (f.wf = false → exec (.frameReceived q f) s = .fault .notAFrame)
     ∧ (f.wf = true → s.power = .running → (s.ports.get q).on = true →
         Completes (.frameReceived q f) s fun u =>
           u = (if isRequest s q f then serviceRequest f.data s.opened else framePath q f s.opened))
     ∧ (f.wf = true → s.power ≠ .running ∨ (s.ports.get q).on = false → exec (.frameReceived q f) s = .next s))
  ∧ (∀ (q : Port) (f : Frame) (s : State),
       let matched (i : Fin 96) : Prop :=
         let e := s.tables.entries[i]
         e.valid = true
         ∧ (e.sel = .any ∨ (e.sel = .c ∧ q = .c) ∨ (e.sel = .b ∧ q = .b))
         ∧ (e.fmt = .any ∨ (e.fmt = .std ∧ f.fmt = .std) ∨ (e.fmt = .ext ∧ f.fmt = .ext))
         ∧ (∀ b : Fin 29, e.mask.getLsbD b = true → f.id.getLsbD b = e.id.getLsbD b)
         ∧ e.minLen ≤ f.data.length
       (∀ i, lookup s q f = some i ↔ matched i ∧ ∀ j, j < i → ¬matched j)
       ∧ (lookup s q f = none ↔ ∀ i, ¬matched i))
  ∧ (∀ (q : Port) (f : Frame) (s : State), FrameOnPath q f s →
       let other : Port := match q with | .c => .b | .b => .c
       let number : Nat := match q with | .c => 1 | .b => 0
       let pass : Bool := match q with | .c => s.tables.ports.passC | .b => s.tables.ports.passB
       let plain (a : Action) : Prop := ∃ i, lookup s q f = some i ∧ s.tables.entries[i].action = a
         ∧ s.tables.entries[i].mode = .direct ∧ s.tables.entries[i].picks = []
       ((lookup s q f = none ∧ pass = true) ∨ (plain .pass ∧ (s.role .faultAck).value = s.ackReading) →
         Completes (.frameReceived q f) s fun u =>
           ((s.ports.get other).on = false → u = s.opened)
           ∧ ((s.ports.get other).on = true → 12 ≤ (s.ports.get other).queue.length →
               u = reportBegun .txFull number 0 s.opened)
           ∧ ((s.ports.get other).on = true → (s.ports.get other).queue.length < 12 →
               u = reportEnded .txFull number
                 { s.opened with ports := s.ports.set other ((s.ports.get other).enter f .forward) }
               ∧ (u.ports.get other).queue
                   = (s.ports.get other).queue
                     ++ [{ frame := f, origin := .forward, order := (s.ports.get other).nextOrder }]
               ∧ (u.ports.get other).nextOrder = (s.ports.get other).nextOrder + 1))
       ∧ ((lookup s q f = none ∧ pass = false) ∨ (plain .drop ∧ (s.role .faultAck).value = s.ackReading) →
         Completes (.frameReceived q f) s fun u => u = s.opened)
       ∧ ∀ (i : Fin 96), lookup s q f = some i →
           let e := s.tables.entries[i]
           let w := applyDirect e f.data s.opened
           let offered (g : Frame) (u : State) : Prop :=
             ((s.ports.get other).on = false → u = w)
             ∧ ((s.ports.get other).on = true → 12 ≤ (s.ports.get other).queue.length →
                 u = reportBegun .txFull number 0 w)
             ∧ ((s.ports.get other).on = true → (s.ports.get other).queue.length < 12 →
                 u = reportEnded .txFull number
                   { w with ports := s.ports.set other ((s.ports.get other).enter g .forward) }
                 ∧ (u.ports.get other).queue
                     = (s.ports.get other).queue
                       ++ [{ frame := g, origin := .forward, order := (s.ports.get other).nextOrder }])
           (e.mode = .direct → e.action = .takePass → Completes (.frameReceived q f) s (offered f))
           ∧ (∀ p, e.mode = .direct → e.action = .rewrite → e.place = some p →
               Completes (.frameReceived q f) s (offered { f with data := p.fill w f.data })))

/-- A TAKE entry in DIRECT mode with one VALUE pick into a slot without a vote and without paired refresh (R13, R15,
R16, R23): the field's raw value, scaled with truncation toward zero, is clamped to the slot's range and written,
CLAMPED says whether clamping changed it, and the slot is refreshed; a pick whose field lies beyond the frame's length
leaves every slot as it was. Nothing is forwarded; only an acknowledgement may change more than slots and faults. -/
def Obligations.TakenValueIsWritten : Prop :=
  ∀ (q : Port) (f : Frame) (s : State) (i : Fin 96) (p : Pick), FrameOnPath q f s →
    lookup s q f = some i → s.tables.entries[i].action = .take → s.tables.entries[i].mode = .direct →
    s.tables.entries[i].picks = [p] → p.role = .value →
    s.tables.slots[p.slot].vote = .none → s.tables.slots[p.slot].paired = false →
    let c := s.tables.slots[p.slot]
    let field : Int := ((leNat f.data / 2 ^ p.bitPos % 2 ^ p.width : Nat) : Int)
    let raw : Int := if p.signed ∧ ((2 ^ (p.width - 1) : Nat) : Int) ≤ field then field - (2 ^ p.width : Nat) else field
    let x : Int := Int.tdiv (raw * p.mul) p.div + p.off
    let y : Int := if x < c.min then c.min else if c.max < x then c.max else x
    Completes (.frameReceived q f) s fun u =>
      (p.bitPos + p.width ≤ 8 * f.data.length →
        u.slots[p.slot] = { s.slots[p.slot] with
          status := .fresh, last := y, clamped := y != x
          timer := if c.timeout = 0 then none else some (1000 * c.timeout) }
        ∧ (∀ n : Fin 48, n ≠ p.slot → u.slots[n] = s.slots[n]))
      ∧ (8 * f.data.length < p.bitPos + p.width → u.slots = s.slots)
      ∧ u = { s.opened with slots := u.slots, faults := u.faults, ackReading := u.ackReading, gov := u.gov,
                            arms := u.arms, ev := u.ev }
      ∧ u.gov = { s.gov with lock := u.gov.lock }

/-- A TOKEN pick of a DIRECT entry into a slot with paired refresh (R24): an even result sets even seen, any other odd
seen; when both are then set, both are cleared, the slot is FRESH and its timer restarts; otherwise its status, timer
and value stand. A slot without paired refresh ignores the token. -/
def Obligations.TokenPairRefreshes : Prop :=
  ∀ (q : Port) (f : Frame) (s : State) (i : Fin 96) (p : Pick) (x : Int), FrameOnPath q f s →
    lookup s q f = some i → s.tables.entries[i].action = .take → s.tables.entries[i].mode = .direct →
    s.tables.entries[i].picks = [p] → p.role = .token → s.tables.slots[p.slot].vote = .none →
    p.result f.data = some x →
    let c := s.tables.slots[p.slot]
    let r := s.slots[p.slot]
    let even := r.evenSeen || decide (x % 2 = 0)
    let odd := r.oddSeen || decide (x % 2 ≠ 0)
    Completes (.frameReceived q f) s fun u =>
      u.slots[p.slot] =
        (if c.paired = false then r
         else if even && odd then
           { r with status := .fresh, evenSeen := false, oddSeen := false
                    timer := if c.timeout = 0 then none else some (1000 * c.timeout) }
         else { r with evenSeen := even, oddSeen := odd })
      ∧ (∀ n : Fin 48, n ≠ p.slot → u.slots[n] = s.slots[n])
      ∧ u.ports = s.ports ∧ u.senders = s.senders

/-- The data of a REWRITE forward (R17): inside the frame the place's field takes the source value under its combine
rule, saturated to the field, and every other bit stands; a field beyond the frame's length leaves the data unchanged.
A frame that a REWRITE entry without picks wins enters the other port's queue with this data, its identifier, format
and length as received (R13); stated for an ON port with a place and FAULT_ACK reading as before. -/
def Obligations.RewriteFillsItsField : Prop :=
  (∀ (q : Port) (f : Frame) (s : State) (i : Fin 96) (p : RewritePlace), FrameOnPath q f s →
    let e := s.tables.entries[i]
    let other : Port := match q with | .c => .b | .b => .c
    lookup s q f = some i → e.action = .rewrite → e.mode = .direct → e.picks = [] → e.place = some p →
    (s.role .faultAck).value = s.ackReading → (s.ports.get other).on = true → (s.ports.get other).queue.length < 12 →
    Completes (.frameReceived q f) s fun u =>
      (u.ports.get other).queue = (s.ports.get other).queue
          ++ [{ frame := ⟨f.fmt, f.id, p.fill s f.data⟩, origin := .forward, order := (s.ports.get other).nextOrder }]
      ∧ u = { s.opened with ports := u.ports, faults := u.faults, ev := u.ev } ∧ u.ports.get q = s.ports.get q)
  ∧ ∀ (p : RewritePlace) (s : State) (data : List Byte),
    let original : Int := ((leNat data / 2 ^ p.bitPos % 2 ^ p.width : Nat) : Int)
    let source : Int := match p.source with
      | .engineRequest => s.alloc.request
      | .slot n => s.slotReads n
    let wanted : Int := match p.combine with
      | .replace => source
      | .max => if original ≤ source then source else original
      | .min => if source ≤ original then source else original
    (p.fill s data).length = data.length
    ∧ (8 * data.length < p.bitPos + p.width → p.fill s data = data)
    ∧ (p.bitPos + p.width ≤ 8 * data.length →
        ((leNat (p.fill s data) / 2 ^ p.bitPos % 2 ^ p.width : Nat) : Int)
          = (if wanted < 0 then 0 else if ((2 ^ p.width : Nat) : Int) - 1 < wanted then ((2 ^ p.width : Nat) : Int) - 1 else wanted)
        ∧ leNat (p.fill s data) % 2 ^ p.bitPos = leNat data % 2 ^ p.bitPos
        ∧ leNat (p.fill s data) / 2 ^ (p.bitPos + p.width) = leNat data / 2 ^ (p.bitPos + p.width))

/-- FRAME_SENT (R5, R6, R152): the offered record leaves the queue, the freed place of an ON port is handed to the
holder that has waited longest, the link is given the record of highest priority that remains, a channel's records out
fall by 1, and sends that are thereby complete complete (R152, R153); a service restart follows when the record was
the RESTART reply. Without an offered record nothing happens. The order of the event's parts, the level formed before
sends complete, is log entries 11, 12, 14 and 45, an event that cannot happen log entry 24. -/
def Obligations.SentRecordLeaves : Prop :=
  ∀ (q : Port) (s : State),
    (∀ r, s.power = .running → (s.ports.get q).offeredRecord = some r → (s.ports.get q).holders = [] →
      ∃ v, exec (.frameSent q) s = .next (restartIfDue (finish (completeAll v)))
        ∧ (v.ports.get q).queue = (s.ports.get q).queue.filter (fun x => x.order != r.order)
        ∧ (v.ports.get q).offered = (highest (v.ports.get q).queue).map (fun x => x.order)
        ∧ (v.ports.get q).on = (s.ports.get q).on ∧ (v.ports.get q).holders = []
        ∧ v.ports.get (otherPort q) = s.ports.get (otherPort q)
        ∧ (∀ ch : Fin 6, v.channels[ch] = if r.origin = .channel ch then { s.channels[ch] with out := s.channels[ch].out - 1 }
            else s.channels[ch])
        ∧ v.service.restart = (if q = .c ∧ s.service.restart = .queued r.order then .left else s.service.restart)
        ∧ v = { s.opened with ports := v.ports, channels := v.channels, service.restart := v.service.restart })
    ∧ (∀ r, s.power = .running → (s.ports.get q).offeredRecord = some r → (s.ports.get q).holders ≠ [] →
        (s.ports.get q).on = true → ((s.ports.get q).queue.filter (fun x => x.order != r.order)).length < 12 →
        ∃ w v, exec (.frameSent q) s = .next (restartIfDue (finish (completeAll
            { v with ports := v.ports.set q (v.ports.get q).offerLink })))
          ∧ PlaceHanded q w v
          ∧ w.ports = s.ports.set q { (s.ports.get q) with
              queue := (s.ports.get q).queue.filter (fun x => x.order != r.order), offered := none }
          ∧ (∀ ch : Fin 6, w.channels[ch] = if r.origin = .channel ch then { s.channels[ch] with out := s.channels[ch].out - 1 }
              else s.channels[ch])
          ∧ w.service.restart = (if q = .c ∧ s.service.restart = .queued r.order then .left else s.service.restart)
          ∧ w = { s.opened with ports := w.ports, channels := w.channels, service.restart := w.service.restart })
    ∧ (∀ v : State, SendsCompleted v (completeAll v))
    ∧ (s.power ≠ .running ∨ (s.ports.get q).offeredRecord = none → exec (.frameSent q) s = .next s)

/-- A free place of an ON port is handed to the longest-waiting holder (R6): the service unit puts in its first reply,
under the format and identifier of the moment it was offered (R168), and a channel builds the frame it awaits at that
moment, its records out growing by 1; the holder leaves the waiting holders. A SINGLE send offers nothing further; a
SEQUENCE send goes on with the rest of its run until it is at its end, stalls again behind the holders already
waiting, or is refused (R150, R151, R154). Stated for a lone reply and for sends without a stop mark; a reply that
meets a full queue keeps the format and identifier in force, shown at STATUS (a request command acts as its frame, log
entry 26). WAITING_HOLDER_PLACED alone is log entry 25. -/
def Obligations.WaitingHolderGetsPlace : Prop :=
  (∀ (s : State) (tag : Byte), s.power = .running → s.ports.c.on = true → s.ports.c.full = true →
    s.service.replies = [] → s.service.restart = .clear →
    let reply : Reply := { data := replyBytes 0x08 tag .ok (leBytes 2 s.spray.duty ++ [byteOf s.spray.mask] ++ leBytes 2 s.alloc.request)
                           isRestart := false, offered := some (s.tables.ports.repFmt, s.tables.ports.repId) }
    exec (.status tag 1) s = .next (finish { s.taken with
      service := { s.taken.service with replies := [reply] }
      ports := { s.ports with c := { s.ports.c with holders := s.ports.c.holders ++ [.service] } } }))
  ∧ ∀ (q : Port) (s : State) (rest : List Holder), s.power = .running → (s.ports.get q).on = true →
    (s.ports.get q).queue.length < 12 → (s.ports.get q).offered ≠ none →
    let entered (f : Frame) (o : Origin) : List TxRec :=
      (s.ports.get q).queue ++ [{ frame := f, origin := o, order := (s.ports.get q).nextOrder }]
    (∀ r fmt id, q = .c → (s.ports.get q).holders = .service :: rest → .service ∉ rest → s.service.replies = [r] →
      r.offered = some (fmt, id) →
      ∃ v, exec (.waitingHolderPlaced q) s = .next (finish (completeAll v))
        ∧ (v.ports.get q).queue = entered ⟨fmt, id, r.data⟩ .service
        ∧ (v.ports.get q).holders = rest ∧ v.service.replies = []
        ∧ v = { s.opened with ports := v.ports, service := v.service })
    ∧ (∀ (ch : Fin 6) (n : Nat), (s.ports.get q).holders = .channel ch :: rest → s.channels[ch].awaited = some n →
        s.tables.channels[ch].sequence = false → s.channels[ch].stop = false →
        ∃ v, exec (.waitingHolderPlaced q) s = .next (finish (completeAll v))
          ∧ (v.ports.get q).queue = entered (buildFrame s.opened (s.template n)) (.channel ch)
          ∧ (v.ports.get q).holders = rest
          ∧ v.channels[ch] = { s.channels[ch] with state := .sending, awaited := none, out := s.channels[ch].out + 1
                                                   position := (s.tables.channels[ch]).next s.channels[ch].position }
          ∧ v = { s.opened with ports := v.ports, channels := v.channels, faults := v.faults }
          ∧ v.faults = (announceTop (s.template n) s.opened).faults)
    ∧ (∀ (ch : Fin 6) (n : Nat), (s.ports.get q).holders = .channel ch :: rest → s.channels[ch].awaited = some n →
        let cfg := s.tables.channels[ch]
        let x := s.channels[ch]
        cfg.sequence = true → x.stop = false → cfg.runStart ≤ x.position → x.position < cfg.runStart + cfg.runLen →
        let c := { x with state := .sending, awaited := none, out := x.out + 1 }
        let f := buildFrame s.opened (s.template n)
        let handed : PortUnit := { (s.ports.get q) with holders := rest, queue := entered f (.channel ch)
                                                        nextOrder := (s.ports.get q).nextOrder + 1 }
        let w := announceTop (s.template n) { s.opened with ports := s.ports.set q handed }
        ∃ v, exec (.waitingHolderPlaced q) s = .next (finish (completeAll v))
          ∧ (x.position + 1 = cfg.runStart + cfg.runLen →
              v = { w with channels := s.channels.set ch { c with position := cfg.runStart } })
          ∧ (∀ k, x.position + 1 < cfg.runStart + cfg.runLen → x.position + 1 + k ≤ cfg.runStart + cfg.runLen →
              RunOffered ch c (x.position + 1) k w v))

/-- LINK_LOST on an ON port (R1, R7): the port is OFF with an empty queue and no record offered, each channel's
records in the queue are counted as sent, and PORT_LOST begins with severity 3 for the B-port and 2 for the C-port.
What the waiting holders await is counted as sent, in the order in which they began to wait (R7, R151, R168), and the
sends thereby complete complete (R152). LINK_RESTORED on an OFF port: ON, and PORT_LOST ends. On a port already so,
neither changes anything. The order of the parts of LINK_LOST, the level formed after each released holder, sends
completing last, is log entries 11, 12, 14 and 45, an event that cannot happen log entry 24. -/
def Obligations.LinkEvents : Prop :=
  ∀ (q : Port) (s : State),
    let number : Nat := match q with | .c => 0 | .b => 1
    let severity : Fin 4 := match q with | .c => 2 | .b => 3
    (s.power = .running → (s.ports.get q).on = true →
      ∃ v x, exec (.linkLost q) s = .next (restartIfDue (finish (completeAll x)))
        ∧ HoldersReleased (s.ports.get q).holders (formLevel (reportBegun .portLost number severity v)) x
        ∧ SendsCompleted x (completeAll x)
        ∧ v.ports.get q = { (s.ports.get q) with on := false, queue := [], offered := none, holders := [] }
        ∧ v.ports.get (otherPort q) = s.ports.get (otherPort q)
        ∧ (∀ ch : Fin 6, v.channels[ch] = { s.channels[ch] with
            out := s.channels[ch].out - ((s.ports.get q).queue.filter (fun r => r.origin == .channel ch)).length })
        ∧ v.service.restart = (if q = .c ∧ (s.ports.get q).queue.any (fun r => s.service.restart == .queued r.order) then .left
            else s.service.restart)
        ∧ v = { s.opened with ports := v.ports, channels := v.channels, service.restart := v.service.restart })
    ∧ (s.power = .running → (s.ports.get q).on = false →
        Completes (.linkRestored q) s fun u =>
          u = reportEnded .portLost number
            { s.opened with ports := s.ports.set q { (s.ports.get q) with on := true } })
    ∧ ((s.ports.get q).on = false → exec (.linkLost q) s = .next s)
    ∧ ((s.ports.get q).on = true → exec (.linkRestored q) s = .next s)

/-! ## Signal slots and senders (02) -/

/-- What a consumer of a slot and a role reads (R22, R37): the last written value, but the default under DEFAULT while
the slot is not FRESH; an unbound role reads its default and is never fresh. -/
def Obligations.SlotAndRoleReadings : Prop :=
  ∀ (s : State) (n : Fin 48) (r : Role),
    let c := s.tables.slots[n]
    let x := s.slots[n]
    s.slotReads n = (if x.status = .fresh ∨ c.policy = .hold then x.last else c.dflt)
    ∧ (s.tables.roles[r.place] = some n → s.role r = { value := s.slotReads n, fresh := decide (x.status = .fresh) })
    ∧ (s.tables.roles[r.place] = none → s.role r = { value := if r = .park then 1 else 0, fresh := false })

/-- FRESHNESS_TIMER_EXPIRY (R25, R34): the timer stops, the slot is STALE, and SIGNAL_STALE is reported begun for it
with the slot's severity; only an acknowledgement by FAULT_ACK (R38) may change more. The expiry of a stopped timer,
or of a part that does not run, changes nothing (log entry 24). An expiry command brings time forward to the expiry
(log entry 1). -/
def Obligations.FreshnessRunsOut : Prop :=
  ∀ (n : Fin 48) (s : State),
    (∀ r, s.power = .running → s.slots[n].timer = some r →
      Completes (.freshnessTimerExpiry n) s fun u =>
        let w := s.openedAt r
        let reported := reportBegun .signalStale n.val s.tables.slots[n].severity
          { w with slots := w.slots.set n { w.slots[n] with timer := none, status := .stale } }
        u.slots = reported.slots
        ∧ ((u.role .faultAck).value = s.ackReading → u = reported)
        ∧ u = { w with slots := u.slots, faults := u.faults, ackReading := u.ackReading, gov := u.gov, arms := u.arms,
                       ev := u.ev }
        ∧ u.gov = { w.gov with lock := u.gov.lock })
    ∧ (s.power ≠ .running ∨ s.slots[n].timer = none → exec (.freshnessTimerExpiry n) s = .next s)

/-- A frame that a PER_SENDER entry wins (R30, R31): a full table without its record refuses it with a
SENDER_TABLE_FULL occurrence and nothing else; otherwise its record, or a new one in the lowest free place, takes the
clamped value and is FRESH, silent time 0. The record's parity flags stay as they were (log entry 16). Stated for an
entry with one pick into a slot without paired refresh and for action TAKE. -/
def Obligations.SenderFrames : Prop :=
  ∀ (q : Port) (f : Frame) (s : State) (i : Fin 96) (v : Pick) (x : Int), FrameOnPath q f s →
    lookup s q f = some i → s.tables.entries[i].mode = .perSender → s.tables.entries[i].action = .take →
    s.tables.entries[i].picks = [v] → v.role = .value → v.result f.data = some x →
    s.tables.slots[v.slot].paired = false →
    let mine (r : SenderRec) : Prop := r.port = q ∧ r.fmt = f.fmt ∧ r.id = f.id
    let c := s.tables.slots[v.slot]
    let y : Int := if x < c.min then c.min else if c.max < x then c.max else x
    let written (r : SenderRec) : SenderRec :=
      { r with last := some y, written := s.written + 1, fresh := true, silentUs := 0
               timer := if c.timeout = 0 then none else some (1000 * c.timeout) }
    let taken (j : Fin 24) (r : SenderRec) : Prop :=
      Completes (.frameReceived q f) s fun u =>
        u.senders = s.senders.set j (some (written r)) ∧ u.written = s.written + 1
        ∧ u.slots[v.slot].clamped = (y != x)
        ∧ (∀ n : Fin 48, n ≠ v.slot → u.slots[n] = s.slots[n])
        ∧ u.ports = s.ports ∧ u.tables = s.tables
    ((∀ j : Fin 24, ∃ r, s.senders[j] = some r ∧ ¬mine r) →
      Completes (.frameReceived q f) s fun u => u = reportBegun .senderTableFull 0 1 s.opened)
    ∧ (∀ j : Fin 24, s.senders[j] = none → (∀ k : Fin 24, k < j → s.senders[k] ≠ none) →
        (∀ (k : Fin 24) (r : SenderRec), s.senders[k] = some r → ¬mine r) →
        taken j { port := q, fmt := f.fmt, id := f.id, entry := i, slot := v.slot, last := none, written := 0,
                  evenSeen := false, oddSeen := false, timer := none, fresh := false, silentUs := 0 })
    ∧ (∀ (j : Fin 24) (r : SenderRec), s.senders[j] = some r → mine r → r.entry = i →
        (∀ (k : Fin 24) (p : SenderRec), s.senders[k] = some p → mine p → k = j) → taken j r)

/-- SENDER_TIMER_EXPIRY (R32, R34 to R36): the record is SILENT, its silent time 0, and the voted slot it serves is
recomputed: FRESH with the vote over the fresh records when there are enough of them, else STALE from FRESH with its
last value kept. SILENT_TIME_END (R32, R33): after 10 × the slot's timeout of silence the record's place is free and
SENDER_TABLE_FULL has ended; a FRESH record, and one whose slot has timeout 0, is not removed, and its silent time's
end, which cannot happen, changes nothing (log entry 24). An expiry command brings time forward to the expiry (log
entry 1). -/
def Obligations.SenderTimesRunOut : Prop :=
  (∀ (i : Fin 24) (s : State) (r : SenderRec) (t : Nat), s.power = .running → s.senders[i] = some r →
     r.timer = some t →
     let c := s.tables.slots[r.slot]
     Completes (.senderTimerExpiry i) s fun u =>
       let w := s.openedAt t
       let fresh := freshSenders u r.slot
       let x := u.slots[r.slot]
       u.senders = w.senders.set i (w.senders[i].map fun p => { p with timer := none, fresh := false, silentUs := 0 })
       ∧ (∀ n : Fin 48, n ≠ r.slot → u.slots[n] = w.slots[n])
       ∧ (c.vote = .none → x = w.slots[r.slot])
       ∧ (c.vote ≠ .none → c.minFresh ≤ fresh.length → fresh ≠ [] →
           x.status = .fresh ∧ x.timer = none
           ∧ (c.vote = .latest → ∃ p ∈ fresh, x.last = p.value ∧ ∀ p' ∈ fresh, p'.written ≤ p.written)
           ∧ (c.vote = .highest → (∃ p ∈ fresh, x.last = p.value) ∧ ∀ p ∈ fresh, p.value ≤ x.last)
           ∧ (c.vote = .lowest ∨ c.vote = .agree → (∃ p ∈ fresh, x.last = p.value) ∧ ∀ p ∈ fresh, x.last ≤ p.value))
       ∧ (c.vote ≠ .none → fresh.length < c.minFresh →
           x.last = w.slots[r.slot].last
           ∧ x.status = (if w.slots[r.slot].status = .fresh then .stale else w.slots[r.slot].status)
           ∧ (w.slots[r.slot].status = .fresh → c.vote ≠ .agree → u.faults.holds .signalStale r.slot.val = true))
       ∧ (c.vote = .agree →
           (∃ p ∈ fresh, ∃ p' ∈ fresh, c.tolerance < (p.value - p'.value).natAbs) →
           u.faults.holds .signalDisagree r.slot.val = true)
       ∧ u = { w with senders := u.senders, slots := u.slots, faults := u.faults, ackReading := u.ackReading,
                      gov := u.gov, arms := u.arms, ev := u.ev })
  ∧ (∀ (i : Fin 24) (s : State) (r : SenderRec), s.power = .running → s.senders[i] = some r →
       let timeout := s.tables.slots[r.slot].timeout
       (r.fresh = false → timeout ≠ 0 →
         Completes (.silentTimeEnd i) s fun u =>
           let w := s.openedAt (10000 * timeout - r.silentUs)
           u.senders = w.senders.set i none
           ∧ (∀ n : Fin 48, n ≠ r.slot → u.slots[n] = w.slots[n])
           ∧ (FaultListOk s → u.faults.holds .senderTableFull 0 = false)
           ∧ u.ports = w.ports ∧ u.tables = w.tables)
       ∧ (r.fresh = true ∨ timeout = 0 → exec (.silentTimeEnd i) s = .next s))

/-! ## Speed capture, curves (03, 04) -/

/-- PULSE_EDGE (R42 to R45): an unfitted channel takes no edge; in COUNT mode the edge is counted; in PERIOD mode it
arms the measurement when no edge is remembered, and otherwise ends a period t, giving the speed Cp × 1,000 / t signed
by the direction, COUNT mode below 1,000 µs. Every taken edge restarts the standstill time, and an edge later than 400
ms finds the channel at standstill and arms. The clock runs on to the reading at the edge (log entry 31). -/
def Obligations.PulseEdgeIsTaken : Prop :=
  ∀ (ch : CapCh) (high : Bool) (clk : Clock) (s : State), s.power = .running →
    let n := (clk - s.clock).toNat
    let w := s.openedAt n
    let c := w.capture.get ch
    let cfg := s.tables.drive.cap ch
    let inTime : Prop := ∀ r, (s.capture.get ch).standstillT = some r → n ≤ r
    let done := exec (.pulseEdge ch high clk) s
    (cfg.fitted = false → done = .next (advance n s))
    ∧ (cfg.fitted = true → inTime → c.mode = .count →
        Completes (.pulseEdge ch high clk) s fun u =>
          u = { w with capture := w.capture.set ch { c with
            forward := high, standstillT := some 400000, count := min (c.count + 1) 65535, lastEdge := some clk } })
    ∧ (cfg.fitted = true → inTime → c.mode = .period → c.lastEdge = none →
        Completes (.pulseEdge ch high clk) s fun u =>
          u = { w with capture := w.capture.set ch { c with
            forward := high, standstillT := some 400000, lastEdge := some clk } })
    ∧ (∀ before, cfg.fitted = true → inTime → c.mode = .period → c.lastEdge = some before →
        Completes (.pulseEdge ch high clk) s fun u =>
          let t := max (clk - before).toNat 1
          let v : Int := if high then (cfg.cp * 1000 / t : Nat) else -((cfg.cp * 1000 / t : Nat) : Int)
          let x := u.capture.get ch
          x = { c with
            forward := high, standstillT := some 400000, lastEdge := some clk, lastPeriod := some t, speed := v
            measuring := true, status := if c.status = .lost then .lost else .running
            mode := if t < 1000 then .count else .period, count := if t < 1000 then 0 else c.count
            windowT := if t < 1000 then some 20000 else c.windowT, lossT := x.lossT, returnT := x.returnT }
          ∧ CaptureJudged u
          ∧ u = { w with capture := u.capture, faults := u.faults, ev := u.ev })
    ∧ (∀ r, cfg.fitted = true → (s.capture.get ch).standstillT = some r → r < n →
        Completes (.pulseEdge ch high clk) s fun u =>
          let x := u.capture.get ch
          x.lastEdge = some clk ∧ x.forward = high ∧ x.standstillT = some 400000 ∧ x.mode = .period ∧ x.speed = 0
          ∧ x.measuring = false ∧ x.status = (if c.status = .lost then .lost else .standstill)
          ∧ u.tables = s.tables ∧ u.slots = w.slots)

/-- The expiries of speed capture's timers (R44, R45, R48 to R51). A window gives the speed count × Cp / 20 signed by
the direction, and below 10 edges returns the channel to PERIOD mode with no edge remembered; standstill sets the
channel to speed 0 in PERIOD mode; the disagreement timer begins SPEED_DISAGREE; the loss timer makes the channel LOST
with SPEED_CHANNEL_LOST begun; the return timer makes it RUNNING with that condition ended. All but the disagreement
timer are capture updates, after which S and the tests are judged. An expiry command brings time forward to the expiry
(log entry 1). -/
def Obligations.CaptureTimersEnd : Prop :=
  (∀ (ch : CapCh) (s : State) (r : Nat), s.power = .running →
     let w := s.openedAt r
     let c := w.capture.get ch
     let v : Int := if c.forward then (c.count * (s.tables.drive.cap ch).cp / 20 : Nat)
       else -((c.count * (s.tables.drive.cap ch).cp / 20 : Nat) : Int)
     let judged (x : CapRun) (u : State) : Prop :=
       u.capture.get ch = { x with lossT := (u.capture.get ch).lossT, returnT := (u.capture.get ch).returnT }
       ∧ CaptureJudged u ∧ u = { w with capture := u.capture, faults := u.faults, ev := u.ev }
     ((s.capture.get ch).windowT = some r →
       Completes (.windowTimerExpiry ch) s (judged { c with
         speed := v, measuring := true, status := if c.status = .lost then .lost else .running, count := 0
         windowT := if 10 ≤ c.count then some 20000 else none
         mode := if 10 ≤ c.count then c.mode else .period
         lastEdge := if 10 ≤ c.count then c.lastEdge else none }))
     ∧ ((s.capture.get ch).standstillT = some r →
       Completes (.standstillTimerExpiry ch) s (judged { c with
         speed := 0, measuring := false, status := if c.status = .lost then .lost else .standstill, count := 0
         windowT := none, standstillT := none, mode := .period, lastEdge := none })))
  ∧ (∀ (ch : CapCh) (s : State) (r : Nat), s.power = .running →
       let w := s.openedAt r
       let number : Nat := match ch with | .a => 0 | .b => 1
       let updated (st : CapStatus) (u : State) : Prop :=
         (u.capture.get ch).status = st ∧ (u.capture.get ch).speed = (w.capture.get ch).speed
         ∧ CaptureJudged u ∧ u = { w with capture := u.capture, faults := u.faults, ev := u.ev }
       (s.capture.disagreeT = some r →
         Completes .disagreementTimerExpiry s fun u =>
           u = reportBegun .speedDisagree 0 1 { w with capture := { w.capture with disagreeT := none, disagreeBegun := true } }
           ∧ u.faults.holds .speedDisagree 0 = true)
       ∧ ((s.capture.get ch).lossT = some r →
         Completes (.lossTimerExpiry ch) s fun u =>
           updated .lost u ∧ (u.capture.get ch).lossT = none
           ∧ (w.capture.noneBegun = true ∨ u.capture.noneBegun = false → u.faults.holds .speedChannelLost number = true))
       ∧ ((s.capture.get ch).returnT = some r →
         Completes (.returnTimerExpiry ch) s fun u =>
           updated .running u ∧ (u.capture.get ch).returnT = none
           ∧ (FaultListOk s → u.faults.holds .speedChannelLost number = false)))

/-- The value of a curve (R54): points at the multiples of the step, straight segments truncated toward zero between
them and so between their end points, the value at 0 below 0 and y8 from 8 steps on. -/
def Obligations.CurveValue : Prop :=
  ∀ (c : Curve) (x : Int), 1 ≤ c.step →
    (x < 0 → c.eval x = c.eval 0)
    ∧ (8 * c.step ≤ x → c.eval x = c.ys[8])
    ∧ ∀ i : Fin 8, ∀ d : Nat, d < c.step →
        let y0 : Int := c.ys[i.val]
        let y1 : Int := c.ys[i.val + 1]
        let y : Int := c.eval ((i.val * c.step + d : Nat) : Int)
        y = y0 + Int.tdiv ((y1 - y0) * d) c.step
        ∧ min y0 y1 ≤ y ∧ y ≤ max y0 y1 ∧ (d = 0 → y = y0)
        ∧ ((∀ j : Fin 9, c.ys[j] ≤ 20000) → 0 ≤ y ∧ y ≤ 20000)
        ∧ (y0 ≤ y1 → c.step * (y - y0) ≤ (y1 - y0) * d) ∧ (y1 ≤ y0 → (y1 - y0) * d ≤ c.step * (y - y0))

/-! ## Profiles and the travel governor (04, 05) -/

/-- GOVERNOR_PERIOD outside the governor's own state (R60, and of R58, R59, R61, R63, R73, R76 and R87 what is said
here): the pending profile follows a fresh PROFILE_REQUEST and is switched to under the conditions of R60, the motor
stroke moves by 5 toward the active profile's, the restart lock is set at level 2 or 3, CRUISE_SET is remembered, and
the period starts anew; the rest of the part stands. An expiry command brings time forward to the expiry (log entry
1). -/
def Obligations.GovernorPeriodSelects : Prop :=
  ∀ (s : State) (r : Nat), s.power = .running → s.gov.timer = some r →
    let w := s.openedAt r
    let ask := s.role .profileRequest
    let old := s.selector.active
    let speed := s.capture.s.natAbs
    let may (p : Fin 4) : Prop :=
      match s.tables.profiles[old].kind, s.tables.profiles[p].kind with
      | .work, .work => s.faults.level ≤ 1
      | .work, .transport => (∀ a, (s.arms.get a).state = .stowed) ∧ speed ≤ 833
      | .transport, _ => speed ≤ s.tables.profiles[p].ceiling
    let weighed (p : Fin 4) (x : Selector) : Prop :=
      (may p → x = { active := p, pending := none }) ∧ (¬may p → x = { active := old, pending := some p })
    Completes .governorPeriod s fun u =>
      let target := s.tables.profiles[u.selector.active].motor
      (ask.fresh = false → u.selector = { active := old, pending := none })
      ∧ (∀ p : Fin 4, ask.fresh = true → ask.value = p.val → p ≠ old → weighed p u.selector)
      ∧ (ask.fresh = true → ask.value = old.val → u.selector = { active := old, pending := none })
      ∧ (ask.fresh = true → ask.value < 0 ∨ 3 < ask.value →
          (s.selector.pending = none → u.selector = s.selector)
          ∧ (∀ p, s.selector.pending = some p → weighed p u.selector))
      ∧ u.gov.motor = (if s.gov.motor < target then min (s.gov.motor + 5) target
                       else if target < s.gov.motor then max (s.gov.motor - 5) target else target)
      ∧ u.gov.lock = (s.gov.lock || decide (2 ≤ s.faults.level))
      ∧ u.gov.rememberedSet = some (s.role .cruiseSet).value
      ∧ u.gov.timer = some 10000
      ∧ u = { w with selector := u.selector, gov := u.gov, faults := u.faults, ev := u.ev }
      ∧ u.faults.level = s.faults.level

/-- The governor at rest (R72, and of R68 and R69 what is said here): level 3, an open session or the shutdown hold
keeps or puts it HELD from any state; NEUTRAL goes to HELD at level 2 and begins to travel under the conditions of
R69; HELD goes to NEUTRAL under those of R72; otherwise each stays, at rest. An expiry command brings time forward to
the expiry (log entry 1). -/
def Obligations.GovernorAtRest : Prop :=
  ∀ (s : State) (r : Nat), s.power = .running → s.gov.timer = some r →
    Completes .governorPeriod s fun u =>
      let pedal := (s.role .pedal).value
      let dead : Int := s.tables.profiles[u.selector.active].deadband
      let cause : Prop := s.faults.level = 3 ∨ s.service.session = true ∨ s.shutdown.hold = true
      let lock : Bool := s.gov.lock || decide (2 ≤ s.faults.level)
      let park := s.role .park
      let ready : Prop := park.fresh = true ∧ park.value = 0 ∧ 600 ≤ (s.role .engineSpeed).value ∧ lock = false
        ∧ s.faults.level ≤ 1
      let leaves : Prop := s.faults.level ≤ 1 ∧ s.capture.s.natAbs ≤ 30 ∧ -dead ≤ pedal ∧ pedal ≤ dead ∧ lock = false
      let rests (st : GovState) : Prop :=
        u.gov.state = st ∧ u.gov.dir = 0 ∧ u.gov.v = 0 ∧ u.gov.p = 0 ∧ u.gov.i = 0 ∧ u.gov.mark = .none
        ∧ u.gov.cruise = none ∧ u.gov.engineLow = false
      (cause → rests .held)
      ∧ (¬cause → s.gov.state = .neutral →
          (s.faults.level = 2 → rests .held)
          ∧ (ready → dead < pedal → u.gov.state = .forward ∧ u.gov.dir = 1)
          ∧ (ready → pedal < -dead → u.gov.state = .reverse ∧ u.gov.dir = -1)
          ∧ (s.faults.level ≠ 2 → ¬(ready ∧ (dead < pedal ∨ pedal < -dead)) → rests .neutral))
      ∧ (¬cause → s.gov.state = .held → (leaves → rests .neutral) ∧ (¬leaves → rests .held))

/-- A period in FORWARD or REVERSE that neither holds nor stops (R74 to R84): cruise, the target under the ceilings,
the ramp, the feedforward, the correction with its anti-windup, the stroke within the cap and of the direction's sign,
and the end of travel at rest. An expiry command brings time forward to the expiry (log entry 1). -/
def Obligations.TravelIsComputed : Prop :=
  ∀ (s : State) (r : Nat), s.power = .running → s.gov.timer = some r →
    s.gov.state = .forward ∨ s.gov.state = .reverse →
    s.faults.level ≤ 1 → s.service.session = false → s.shutdown.hold = false →
    (s.role .park).fresh = true → (s.role .park).value = 0 → 600 ≤ (s.role .engineSpeed).value →
    Completes .governorPeriod s fun u =>
      let p := s.tables.profiles[u.selector.active]
      let d := s.tables.drive
      let pedal := (s.role .pedal).value
      let forward : Bool := s.gov.state == .forward
      let reversal : Bool := if forward then decide (pedal < -(p.deadband : Int)) else decide ((p.deadband : Int) < pedal)
      let set := s.role .cruiseSet
      let cancel := (s.role .cruiseCancel).value
      let engages : Prop := set.fresh = true ∧ set.value ≠ 0 ∧ s.gov.rememberedSet = some 0 ∧ p.cruiseAllowed = true
        ∧ s.faults.level = 0 ∧ 300 ≤ s.gov.v ∧ reversal = false ∧ cancel = 0
      let vfull := (s.role .engineSpeed).value.toNat * d.gk / u.gov.motor
      let asked := s.tables.curves[p.speedCurve].eval (if pedal.natAbs ≤ p.deadband then 0 else pedal.natAbs)
      let wanted := match u.gov.cruise with | some c => max c asked | none => asked
      let limited := min wanted (min p.ceiling (vfull * p.cap / 1000))
      let t := if reversal then 0 else if s.faults.level = 1 then min limited 1389 else limited
      let v := if s.gov.v < t then min (s.gov.v + p.aUp) t else if t < s.gov.v then max (s.gov.v - p.aDn) t else t
      let e : Int := v - s.capture.s.natAbs
      let held : Bool := (s.gov.mark == .high && decide (0 < e)) || (s.gov.mark == .low && decide (e < 0))
      let moved : Int := if held then s.gov.i else s.gov.i + e * d.ki
      let top : Int := 1000 * d.imax
      let i : Int := if moved < -top then -top else if top < moved then top else moved
      let sum : Int := (v * 1000 / vfull : Nat) + Int.tdiv (e * d.kp) 1000 + Int.tdiv i 1000
      let stroke : Int := if sum < 0 then 0 else if (p.cap : Int) < sum then p.cap else sum
      let ends : Prop := v = 0 ∧ s.capture.s.natAbs ≤ 30 ∧ u.gov.cruise = none
        ∧ (reversal = true ∨ (-(p.deadband : Int) ≤ pedal ∧ pedal ≤ p.deadband))
      (forward = true → engages → u.gov.cruise = some s.gov.v)
      ∧ (forward = true → ¬engages → cancel ≠ 0 ∨ reversal = true ∨ 1 ≤ s.faults.level → u.gov.cruise = none)
      ∧ (forward = true → ¬engages → cancel = 0 → reversal = false → s.faults.level = 0 →
          s.selector.pending ≠ some s.selector.active →
          u.gov.cruise = if u.selector.active = s.selector.active then s.gov.cruise else none)
      ∧ (forward = false → u.gov.cruise = none)
      ∧ (¬ends → u.gov.state = s.gov.state ∧ u.gov.dir = s.gov.dir ∧ u.gov.v = v
          ∧ (t = 0 → v = 0 → u.gov.p = 0 ∧ u.gov.i = 0 ∧ u.gov.mark = .none)
          ∧ (¬(t = 0 ∧ v = 0) → u.gov.i = i ∧ u.gov.p = s.gov.dir * stroke
              ∧ u.gov.mark = if (p.cap : Int) ≤ sum ∧ 0 < sum then .high else if sum ≤ 0 then .low else .none))
      ∧ (ends → u.gov.state = .neutral ∧ u.gov.dir = 0 ∧ u.gov.v = 0 ∧ u.gov.p = 0 ∧ u.gov.i = 0)

/-- A controlled stop (R70, R71, R85): level 2, PARK engaged or an engine below 600 rpm turns travel into STOPPING at
a period; V falls by 40, the stroke is computed with the engine taken as 600 rpm at least, and at V = 0 and standstill
the stop ends in HELD at level 2 or more and in NEUTRAL otherwise. ENGINE_LOW begins with the stop of a low engine and
ends when the engine is back or the stop ends. An expiry command brings time forward to the expiry (log entry 1). -/
def Obligations.ControlledStop : Prop :=
  ∀ (s : State) (r : Nat), s.power = .running → s.gov.timer = some r →
    s.faults.level ≠ 3 → s.service.session = false → s.shutdown.hold = false →
    let n := (s.role .engineSpeed).value
    let park := s.role .park
    let travels : Prop := s.gov.state = .forward ∨ s.gov.state = .reverse
    (travels ∧ (s.faults.level = 2 ∨ ¬(park.fresh = true ∧ park.value = 0) ∨ n < 600)) ∨ s.gov.state = .stopping →
    Completes .governorPeriod s fun u =>
      let p := s.tables.profiles[u.selector.active]
      let d := s.tables.drive
      let v := s.gov.v - 40
      let vfull := max n.toNat 600 * d.gk / u.gov.motor
      let e : Int := v - s.capture.s.natAbs
      let held : Bool := (s.gov.mark == .high && decide (0 < e)) || (s.gov.mark == .low && decide (e < 0))
      let moved : Int := if held then s.gov.i else s.gov.i + e * d.ki
      let top : Int := 1000 * d.imax
      let i : Int := if moved < -top then -top else if top < moved then top else moved
      let sum : Int := (v * 1000 / vfull : Nat) + Int.tdiv (e * d.kp) 1000 + Int.tdiv i 1000
      let stroke : Int := if sum < 0 then 0 else if (p.cap : Int) < sum then p.cap else sum
      let ends : Prop := v = 0 ∧ s.capture.s.natAbs ≤ 30
      u.gov.v = v ∧ u.gov.cruise = none
      ∧ (v = 0 → u.gov.p = 0 ∧ u.gov.i = 0 ∧ u.gov.mark = .none)
      ∧ (v ≠ 0 → u.gov.p = s.gov.dir * stroke ∧ u.gov.i = i)
      ∧ (¬ends → u.gov.state = .stopping ∧ u.gov.dir = s.gov.dir
          ∧ (u.gov.engineLow = true ↔ n < 600 ∧ (travels ∨ s.gov.engineLow = true)))
      ∧ (ends → u.gov.state = (if 2 ≤ s.faults.level then .held else .neutral) ∧ u.gov.dir = 0
          ∧ u.gov.engineLow = false)

/-- The overspeed watch (R86), at every period and in every state: 10 ms more up to 500 while |S| is above 1.2 times
the active profile's ceiling, OVERSPEED begun when 500 is reached; 0 and the condition ended otherwise.
OVERSPEED_TIME_LIMIT alone begins the condition when the time stands at 500 without it (log entry 25), and changes
nothing else (log entry 24). An expiry command brings time forward to the expiry (log entry 1). -/
def Obligations.OverspeedIsWatched : Prop :=
  ∀ (s : State),
    (∀ r, s.power = .running → s.gov.timer = some r →
      Completes .governorPeriod s fun u =>
        let limit := s.tables.profiles[u.selector.active].ceiling * 12 / 10
        let above : Prop := limit < s.capture.s.natAbs
        (above → u.gov.overspeedMs = min (s.gov.overspeedMs + 10) 500
          ∧ u.gov.overspeed = (s.gov.overspeed || decide (490 ≤ s.gov.overspeedMs))
          ∧ (s.gov.overspeed = false → 490 ≤ s.gov.overspeedMs → u.faults.holds .overspeed 0 = true))
        ∧ (¬above → u.gov.overspeedMs = 0 ∧ u.gov.overspeed = false
          ∧ (FaultListOk s → s.gov.overspeed = true → u.faults.holds .overspeed 0 = false)))
    ∧ (s.power = .running → s.gov.overspeedMs = 500 → s.gov.overspeed = false →
        Completes .overspeedTimeLimit s fun u =>
          u = reportBegun .overspeed 0 2 { s.opened with gov := { s.gov with overspeed := true } }
          ∧ u.faults.holds .overspeed 0 = true)
    ∧ (s.power ≠ .running ∨ s.gov.overspeedMs ≠ 500 ∨ s.gov.overspeed = true →
        exec .overspeedTimeLimit s = .next s)

/-! ## Arms, lift circuit, response level (06, 10) -/

/-- ARM_PERIOD's commands and desired positions (R90, R91, R103, R132): valve, pressure and brush speeds follow the
state each arm ends the period in, the scaled speed is never raised, a fitted arm is wanted down only under the
conditions of R91, the obstruction hold is cleared and ARM_OBSTRUCTED ends without a request (one kept over a restart
too, log entry 40), and the bank of an arm not on the road is closed. An expiry command brings time forward to the
expiry (log entry 1). -/
def Obligations.ArmCommandsFollowStates : Prop :=
  ∀ (s : State) (r : Nat), s.power = .running → s.lift.timer = some r →
    let w := s.openedAt r
    let p := s.profile
    Completes .armPeriod s fun u =>
      (∀ a : Arm,
        let x := u.arms.get a
        let c := s.tables.arms.arms.get a
        let turning : Bool := x.state == .working || x.state == .float
        let asked : Bool := (s.role (.armRequest a)).fresh && (s.role (.armRequest a)).value != 0
        x.valve = (if x.state = .lowering then c.lower else if x.state = .lifting then c.lift else 0)
        ∧ x.pressure = (if x.state = .working then (p.arms.get a).pressure else 0)
        ∧ x.rpm = (if turning then s.tables.curves[(p.arms.get a).curve].eval s.capture.s.natAbs else 0)
        ∧ x.scaled = min (s.arms.get a).scaled x.rpm
        ∧ (c.fitted = true → asked = false → FaultListOk s → u.faults.holds .armObstructed (armNumber a) = false)
        ∧ (c.fitted = true →
            x.obstructed = ((s.arms.get a).obstructed && asked)
            ∧ (x.desiredDown = true ↔ asked = true ∧ p.kind = .work ∧ s.service.session = false ∧ s.faults.level < 2
                ∧ ¬(a ≠ .mb ∧ s.gov.state = .reverse ∧ p.liftReverse = true) ∧ (s.arms.get a).obstructed = false))
        ∧ ((u.spray.banks.get a).isOpen = true ↔ (s.spray.banks.get a).isOpen = true ∧ turning = true))
      ∧ u.lift.timer = some 20000 ∧ u.spray.volume = s.spray.volume
      ∧ u = { w with arms := u.arms, lift := u.lift, spray := u.spray, faults := u.faults, ev := u.ev }

/-- The transitions of a fitted arm at ARM_PERIOD (R92 to R94, R96, R98, R100, R101, R106), and the grant that follows
them (R95). An arm that wants a place joins when the queue has one left whatever the arms weighed before it take, and
stays as it is when the level, the shutdown hold or a full queue of arms that keep their places shuts it out; an arm
in INIT joins like any other (log entry 41). An arm in the queue keeps its place while its desired position agrees,
and else leaves the queue or changes its wait as its wait origin and position say; leaving ends LIFT_STARVED, one kept
over a restart too (log entry 40). One transition an arm and period is log entry 9. The publication of a level below
3, shown at a cut-off's release, lets the FROZEN arms rejoin in their order, as many as find a place, and grants
nothing (R106). An expiry command brings time forward to the expiry (log entry 1). -/
def Obligations.ArmTransitions : Prop :=
  (∀ (s : State) (r : Nat) (a : Arm), s.power = .running → s.lift.timer = some r → LiftCircuitOk s →
    (s.tables.arms.arms.get a).fitted = true →
    Completes .armPeriod s fun u =>
      let c := s.tables.arms.arms.get a
      let x := s.arms.get a
      let y := u.arms.get a
      let at' := s.role (.armPosition a)
      let bent := s.role (.armDeflection a)
      let wantsDown : Prop := y.desiredDown = true
      let below3 : Prop := s.faults.level < 3 ∧ s.shutdown.hold = false
      let before : List Arm := match a with | .sl => [] | .sr => [.sl] | .mb => [.sl, .sr]
      let rivals := before.countP fun b => (s.armCfg b).fitted
        && [ArmState.init, .stowed, .working, .float, .frozen].contains (s.arms.get b).state
      let finds : Prop := below3 ∧ s.lift.queue.length + rivals < 2
      let shut : Prop := ¬below3 ∨ (s.lift.queue.length = 2
        ∧ ∀ b ∈ s.lift.queue, (u.arms.get b).desiredDown = ((s.arms.get b).state == .waitDown))
      let granted : Prop := u.lift.holder = some a ∧ y.motionT = some (1000 * c.motionLimit) ∧ y.waitT = none
        ∧ y.starved = false ∧ a ∉ u.lift.queue
      let waits (up : Bool) (o : WaitOrigin) (t : Timer) : Prop :=
        y.origin = o
        ∧ ((y.state = (if up then .waitUp else .waitDown) ∧ y.waitT = t ∧ a ∈ u.lift.queue)
           ∨ (y.state = (if up then .lifting else .lowering) ∧ granted))
      let joins (up : Bool) (o : WaitOrigin) : Prop := waits up o (some 20000000) ∧ y.floatT = none
      let runsOn : Timer := (s.openedAt r |>.arms.get a).waitT
      let leaves (st : ArmState) : Prop :=
        y.state = st ∧ y.waitT = none ∧ y.starved = false ∧ a ∉ u.lift.queue
        ∧ (FaultListOk s → u.faults.holds .liftStarved (armNumber a) = false)
      let atStow : Prop := at'.fresh = true ∧ at'.value ≤ c.stow
      let atWork : Prop := at'.fresh = true ∧ (c.work : Int) ≤ at'.value
      (x.state = .init → atStow → y.state = .stowed)
      ∧ (x.state = .init → at'.fresh = false → y.state = .init)
      ∧ (x.state = .init → at'.fresh = true → ¬atStow → (finds → joins true .midway)
          ∧ (shut → y.state = .init))
      ∧ (x.state = .lowering → atWork → y.state = .working ∧ y.motionT = none ∧ u.lift.holder ≠ some a)
      ∧ (x.state = .lifting → atStow → y.state = .stowed ∧ y.motionT = none ∧ u.lift.holder ≠ some a)
      ∧ (x.state = .lowering → ¬atWork → y.state = .lowering ∧ u.lift.holder = some a)
      ∧ (x.state = .lifting → ¬atStow → y.state = .lifting ∧ u.lift.holder = some a)
      ∧ (x.state = .working → wantsDown ∨ shut →
          if bent.fresh = true ∧ (c.deflOn : Int) < bent.value then
            y.state = .float ∧ y.floatT = some (1000 * c.floatLimit)
          else y.state = .working)
      ∧ (x.state = .float → wantsDown ∨ shut →
          if bent.fresh = true ∧ bent.value < c.deflOff then y.state = .working ∧ y.floatT = none else y.state = .float)
      ∧ (x.state = .working ∨ x.state = .float → ¬wantsDown → finds → joins true .working)
      ∧ (x.state = .stowed → ¬wantsDown ∨ shut → y.state = .stowed)
      ∧ (x.state = .stowed → wantsDown → finds → joins false .stowed)
      ∧ (x.state = .waitDown → wantsDown → waits false x.origin runsOn)
      ∧ (x.state = .waitUp → ¬wantsDown → waits true x.origin runsOn)
      ∧ (x.state = .waitDown → ¬wantsDown → x.origin = .stowed → leaves .stowed)
      ∧ (x.state = .waitDown → ¬wantsDown → x.origin = .midway →
          (atStow → leaves .stowed) ∧ (¬atStow → waits true .midway runsOn))
      ∧ (x.state = .waitUp → wantsDown → x.origin = .working → leaves .working)
      ∧ (x.state = .waitUp → wantsDown → x.origin = .midway →
          (atWork → leaves .working) ∧ (¬atWork → waits false .midway runsOn))
      ∧ (x.state = .frozen → x.frozenMotion = .none ∨ shut → y.state = .frozen)
      ∧ (x.state = .frozen → finds → (x.frozenMotion = .up → joins true x.origin)
          ∧ (x.frozenMotion = .down → joins false x.origin))
      ∧ (x.state = .faulted → y.state = .faulted)
      ∧ (u.lift.holder = some a → s.lift.holder ≠ some a →
          below3 ∧ 600 ≤ (s.role .engineSpeed).value ∧ s.tables.arms.liftFlow ≤ s.alloc.fav)
      ∧ (u.lift.holder = none → below3 → 600 ≤ (s.role .engineSpeed).value → s.tables.arms.liftFlow ≤ s.alloc.fav →
          u.lift.queue = []))
  ∧ ∀ s : State, s.power = .running → s.cutoffLine = true → s.faults.latch = true → s.faults.level = 3 →
      s.shutdown.hold = false → s.lift.queue = [] → FaultListOk s →
      ((s.role .pedal).fresh = false ∨ (s.role .pedal).value.natAbs ≤ s.profile.deadband) →
      (∀ r ∈ s.faults.records, r.severity = 3 → r.kind = .cutoff ∧ r.subject = 0 ∧ r.ack = false) →
      let rejoins (b : Arm) : Bool := (s.arms.get b).state == .frozen && (s.arms.get b).frozenMotion != .none
      let rank (b : Arm) : Nat := (s.arms.get b).frozenRank
      let up (b : Arm) : Bool := (s.arms.get b).frozenMotion == .up
      let ahead (b a : Arm) : Bool := rejoins b && ((up b && !up a) || (up b == up a && decide (rank b < rank a)))
      (∀ a, rejoins a = true → 1 ≤ rank a ∧ rank a ≤ 3 ∧ ∀ b, rejoins b = true → a ≠ b → rank a ≠ rank b) →
      ∃ t, exec .cutoffInactive s = .next t ∧ t.faults.level ≠ 3 ∧ t.lift.holder = s.lift.holder
        ∧ t.lift.queue.Pairwise (fun b a => ahead b a = true)
        ∧ ∀ a : Arm,
            let places := [Arm.sl, .sr, .mb].countP fun b => ahead b a
            (rejoins a = true → places < 2 →
              a ∈ t.lift.queue
              ∧ t.arms.get a = { s.arms.get a with state := if up a then .waitUp else .waitDown, floatT := none
                                                   waitT := some 20000000 })
            ∧ (rejoins a = false ∨ 2 ≤ places → a ∉ t.lift.queue ∧ t.arms.get a = s.arms.get a)

/-- The expiries of an arm's timers. MOTION_TIMER_EXPIRY (R95, R99): the arm is FAULTED with its valve 0, ARM_STUCK is
reported for it, LATCHED from the start, and a grant is weighed at once: the head of the queue is granted the circuit
when the level is below 3, no shutdown hold stands, the engine has 600 rpm and the available flow covers the lift
flow, which is that of the working ARM_CONFIG (the model's choice, log entry 39); its commands and limit are those it
read at its last period (R88). FLOAT_TIMER_EXPIRY (R102): the obstruction hold is set and ARM_OBSTRUCTED begins.
WAIT_TIMER_EXPIRY (R97): LIFT_STARVED begins and the arm keeps its place. An expiry command brings time forward to the
expiry (log entry 1). -/
def Obligations.ArmTimersEnd : Prop :=
  (∀ (s : State) (r : Nat) (a : Arm), s.power = .running → (s.arms.get a).motionT = some r →
     let w := s.openedAt r
     let may : Prop := s.faults.level < 3 ∧ s.shutdown.hold = false ∧ 600 ≤ (s.role .engineSpeed).value
       ∧ s.tables.arms.liftFlow ≤ s.alloc.fav
     Completes (.motionTimerExpiry a) s fun u =>
       (s.lift.queue.head? ≠ some a →
         u.arms.get a = { w.arms.get a with state := .faulted, valve := 0, motionT := none })
       ∧ (s.lift.queue = [] ∨ ¬may → u.lift = { w.lift with holder := none } ∧ ∀ b, b ≠ a → u.arms.get b = w.arms.get b)
       ∧ (∀ b rest, s.lift.queue = b :: rest → b ≠ a → may →
           let c := (s.arms.get b).read
           let up : Bool := (w.arms.get b).state == .waitUp
           u.lift = { w.lift with holder := some b, queue := rest }
           ∧ u.arms.get b = { w.arms.get b with
               state := if up then .lifting else .lowering, valve := if up then c.lift else c.lower
               motionT := some (1000 * c.motionLimit), waitT := none, starved := false }
           ∧ ∀ b', b' ≠ a → b' ≠ b → u.arms.get b' = w.arms.get b')
       ∧ (s.faults.find .armStuck (armNumber a) = none → s.faults.mergedHas .armStuck (armNumber a) = false →
           (∃ i : Fin 15, s.faults.places[i] = none) →
           ∃ x ∈ u.faults.records, x.kind = .armStuck ∧ x.subject = armNumber a ∧ x.severity = 2 ∧ x.ack = true
             ∧ x.latched = true)
       ∧ u = { w with arms := u.arms, lift := u.lift, spray := u.spray, faults := u.faults, ev := u.ev })
  ∧ (∀ (s : State) (r : Nat) (a : Arm), s.power = .running →
       let w := s.openedAt r
       let number : Nat := match a with | .sl => 0 | .sr => 1 | .mb => 2
       ((s.arms.get a).floatT = some r →
         Completes (.floatTimerExpiry a) s fun u =>
           u = reportBegun .armObstructed number 0
                 { w with arms := w.arms.set a { w.arms.get a with floatT := none, obstructed := true } }
           ∧ u.faults.holds .armObstructed number = true)
       ∧ ((s.arms.get a).waitT = some r →
         Completes (.waitTimerExpiry a) s fun u =>
           u = reportBegun .liftStarved number 0
                 { w with arms := w.arms.set a { w.arms.get a with waitT := none, starved := true } }
           ∧ u.faults.holds .liftStarved number = true))

/-- The cut-off latch (R162, R163). CUTOFF_ACTIVE sets it and begins CUTOFF at severity 3, and while it is set only
stops the release timer; CUTOFF_INACTIVE and the release timer's expiry release it when PEDAL is not fresh or within
the deadband, and let the timer run for another 10 ms otherwise. In SLEEP and without power only the line changes. An
expiry command brings time forward to the expiry (log entry 1). -/
def Obligations.CutoffLatch : Prop :=
  ∀ s : State,
    let pedal := s.role .pedal
    let neutral : Prop := pedal.fresh = false ∨ pedal.value.natAbs ≤ s.profile.deadband
    let judged (w u : State) : Prop :=
      (neutral → u = reportEnded .cutoff 0 { w with faults := { w.faults with latch := false, releaseT := none } })
      ∧ (¬neutral → u = { w with faults := { w.faults with releaseT := some 10000 } })
    (s.power = .running → s.cutoffLine = false → s.faults.latch = false →
      Completes .cutoffActive s fun u =>
        u = reportBegun .cutoff 0 3 { s.opened with cutoffLine := true, faults := { s.faults with latch := true } }
        ∧ u.faults.holds .cutoff 0 = true)
    ∧ (s.power = .running → s.cutoffLine = false → s.faults.latch = true →
      Completes .cutoffActive s fun u =>
        u = { s.opened with cutoffLine := true, faults := { s.faults with releaseT := none } })
    ∧ (s.power = .running → s.cutoffLine = true →
      Completes .cutoffInactive s fun u =>
        (s.faults.latch = false → u = { s.opened with cutoffLine := false })
        ∧ (s.faults.latch = true → judged { s.opened with cutoffLine := false } u))
    ∧ (∀ r, s.power = .running → s.faults.releaseT = some r →
      Completes .releaseTimerExpiry s (judged (s.openedAt r)))
    ∧ (s.power ≠ .running → exec .cutoffActive s = .next { s with cutoffLine := true }
        ∧ exec .cutoffInactive s = .next { s with cutoffLine := false })

/-- What the publication of level 3 does at the event that brings it (R68, R73, R104, R132, R143), shown at
CUTOFF_ACTIVE: the governor is HELD at rest with the restart lock set, every arm of the lift circuit is FROZEN with
its motion, origin and rank, the circuit is empty, every bank is closed, and every motion source reads 0 until the
level falls. That the level is formed at the end of the event is log entry 14. -/
def Obligations.LevelThreeResponse : Prop :=
  ∀ s : State, s.power = .running → s.cutoffLine = false → s.faults.latch = false → s.faults.level ≠ 3 →
    ∃ t, exec .cutoffActive s = .next t
      ∧ t.faults.level = 3 ∧ t.faults.latch = true
      ∧ t.gov = { s.gov with state := .held, dir := 0, v := 0, p := 0, i := 0, mark := .none, cruise := none
                             engineLow := false, lock := true }
      ∧ (∀ a : Arm,
          let x := s.arms.get a
          let down : Bool := x.state == .waitDown || x.state == .lowering
          let up : Bool := x.state == .waitUp || x.state == .lifting
          let waits : Bool := x.state == .waitDown || x.state == .waitUp
          t.arms.get a =
            if down || up then
              { x with state := .frozen, valve := 0, motionT := none, waitT := none, starved := false
                       frozenMotion := if down then .down else .up
                       origin := if waits then x.origin else .midway
                       frozenRank := (s.lift.holder.toList ++ s.lift.queue).idxOf a + 1 }
            else x)
      ∧ t.lift = { s.lift with holder := none, queue := [] }
      ∧ (∀ a : Arm, (t.spray.banks.get a).isOpen = false
          ∧ ((s.spray.banks.get a).isOpen = true → (t.spray.banks.get a).flow = 0 ∧ t.spray.duty = 0 ∧ t.spray.q = 0))
      ∧ t.spray.volume = s.spray.volume
      ∧ (∀ a : Arm, sourceValue t .pumpStroke = 0 ∧ sourceValue t .sprayDuty = 0 ∧ sourceValue t .bankMask = 0
          ∧ sourceValue t (.armValve a) = 0 ∧ sourceValue t (.armPressure a) = 0 ∧ sourceValue t (.brushRpm a) = 0)

/-! ## Flow allocation and spray (07, 08) -/

/-- ALLOCATOR_PERIOD (R114, R115 and R117, and of R111 to R113 and R118 what is said here): available flow, lift
reservation, rotation demand, the scale factor lowered no further than needed until the allotted flows fit, the scaled
speeds of the turning arms (0 for the others), and the engine request. The total scaled brush flow never exceeds the
available flow less the reservation. With nothing left and no demand the factor is 1,000 (log entry 47). An expiry
command brings time forward to the expiry (log entry 1). -/
def Obligations.FlowIsAllotted : Prop :=
  ∀ (s : State) (r : Nat), s.power = .running → s.alloc.timer = some r →
    let w := s.openedAt r
    let n := (s.role .engineSpeed).value
    let speed : Nat := if n < 0 then 0 else if 20000 < n then 20000 else n.toNat
    let fav := speed * s.tables.drive.dimp / 600
    let reserved := if s.lift.holder = none then 0 else s.tables.arms.liftFlow
    let left := fav - reserved
    let turns (a : Arm) : Bool := (s.arms.get a).state == .working || (s.arms.get a).state == .float
    let rpm (a : Arm) : Nat := if turns a then (s.arms.get a).rpm else 0
    let dm (a : Arm) : Nat := (s.tables.arms.arms.get a).dm
    let flow (x : Arm → Nat) : Nat := x .sl * dm .sl / 600 + x .sr * dm .sr / 600 + x .mb * dm .mb / 600
    let demand := flow rpm
    let scaled (k : Nat) (a : Arm) : Nat := rpm a * k / 1000
    let top := if demand ≤ left then 1000 else left * 1000 / demand
    let need := ((demand + reserved) * 600 + s.tables.drive.dimp - 1) / s.tables.drive.dimp
    Completes .allocatorPeriod s fun u =>
      (∃ k ≤ top, (∀ a, u.arms.get a = { w.arms.get a with scaled := scaled k a }) ∧ flow (scaled k) ≤ left
        ∧ (∀ j, k < j → j ≤ top → left < flow (scaled j)) ∧ (demand ≤ left → k = 1000))
      ∧ flow (fun a => (u.arms.get a).scaled) ≤ left
      ∧ u.alloc = { fav := fav, timer := some 20000
                    request := if s.profile.raiseAllowed = true
                        ∧ (turns .sl = true ∨ turns .sr = true ∨ turns .mb = true ∨ s.lift.holder ≠ none) then
                        min need s.profile.requestMax else 0 }
      ∧ u = { w with arms := u.arms, alloc := u.alloc, ev := u.ev }

/-- SPRAY_PERIOD (R127 to R135, R137): the low check, DRY and the pending first reading, the speed condition with its
linger, the banks, their flows, the duty between its bounds, and the volume, which grows by 50 µl per ml/s of total
flow and stays at 2^48 − 1. LINGER_END alone (log entry 25): a linger whose time has run out ends, and nothing else
changes; another is not ended (log entry 24). The linger's first period is log entry 35. An expiry command brings time
forward to the expiry (log entry 1). -/
def Obligations.SprayIsDosed : Prop :=
  (∀ (s : State) (r : Nat), s.power = .running → s.spray.timer = some r →
     let w := s.openedAt r
     let p := s.spray
     let cfg := s.tables.spray
     let tank := s.role .tankLevel
     let speed := s.capture.s.natAbs
     let switch := s.role .spraySwitch
     Completes .sprayPeriod s fun u =>
       let x := u.spray
       let holds : Prop := cfg.minSpeed ≤ speed ∨ x.linger = true
       let q := (x.banks.get .sl).flow + (x.banks.get .sr).flow + (x.banks.get .mb).flow
       let someOpen : Prop := ∃ a, (x.banks.get a).isOpen = true
       (x.lowArmed = if tank.fresh = false then p.lowArmed
           else if p.lowArmed = true then decide (150 ≤ tank.value) else decide (250 < tank.value))
       ∧ (tank.fresh = true → p.lowArmed = true → tank.value < 150 → x.tankLow = true)
       ∧ (tank.fresh = true → p.lowArmed = false → 250 < tank.value → x.tankLow = false)
       ∧ (p.firstPending = true →
           if tank.fresh = true then x.dry = decide (tank.value < 30) ∧ x.firstPending = false
           else x.dry = true ∧ x.firstPending = true)
       ∧ (p.firstPending = false → x.firstPending = false
           ∧ (p.dry = false → x.dry = (!tank.fresh || decide (tank.value < 30)))
           ∧ (p.dry = true → x.dry = !(tank.fresh && decide (250 < tank.value))))
       ∧ x.sprayDry = x.dry
       ∧ (x.dry = true → p.sprayDry = false → u.faults.holds .sprayDry 0 = true)
       ∧ (cfg.minSpeed ≤ speed → x.linger = false ∧ x.belowMs = 0 ∧ x.above = true)
       ∧ (speed < cfg.minSpeed → x.above = false
           ∧ (p.above = true → x.belowMs = 0 ∧ (x.linger = true ↔ 0 < cfg.linger))
           ∧ (p.above = false → p.linger = true →
               x.belowMs = p.belowMs + 50 ∧ (x.linger = true ↔ p.belowMs + 50 < cfg.linger))
           ∧ (p.above = false → p.linger = false → x.linger = false))
       ∧ (∀ a : Arm,
           let turning : Prop := (s.arms.get a).state = .working ∨ (s.arms.get a).state = .float
           let dose := (s.profile.arms.get a).dose
           ((x.banks.get a).isOpen = true ↔ turning ∧ s.faults.level ≤ 1 ∧ switch.fresh = true ∧ switch.value ≠ 0
               ∧ x.dry = false ∧ 0 < dose ∧ holds)
           ∧ (x.banks.get a).flow = if (x.banks.get a).isOpen then dose * speed / 1000 else 0)
       ∧ x.q = q ∧ (¬someOpen → x.duty = 0) ∧ (someOpen → x.duty = max (min (q * 1000 / cfg.qmax) 1000) cfg.minDuty)
       ∧ x.volume = min (p.volume + q * 50) (2 ^ 48 - 1)
       ∧ x.timer = some 50000
       ∧ u = { w with spray := u.spray, faults := u.faults, ev := u.ev })
  ∧ (∀ s : State,
       (s.power = .running → s.spray.linger = true → s.tables.spray.linger ≤ s.spray.belowMs →
         Completes .lingerEnd s fun u => u = { s.opened with spray := { s.spray with linger := false } })
       ∧ (s.power ≠ .running ∨ s.spray.linger = false ∨ s.spray.belowMs < s.tables.spray.linger →
           exec .lingerEnd s = .next s))

/-- The volume accumulator never decreases, except to zero at a cold start or on CLEAR_VOLUME (R135): a command after
which it is lower leaves it 0 and is COLD_START, CLEAR_VOLUME, or a service frame with the code of CLEAR_VOLUME. -/
def Obligations.VolumeNeverDecreases : Prop :=
  ∀ (c : Instr) (s t : State), c.wf = true → s.spray.volume < 2 ^ 48 → exec c s = .next t →
    t.spray.volume < 2 ^ 48
    ∧ (t.spray.volume < s.spray.volume →
        t.spray.volume = 0
        ∧ (c = .coldStart ∨ (∃ tag, c = .clearVolume tag)
           ∨ ∃ f : Frame, c = .frameReceived .c f ∧ isRequest s .c f = true ∧ f.data.head? = some 0x0C))

/-- The working tables change only by a cold start, an accepted COMMIT or a RECALL (11 R169, R173; 12 R182, R183). -/
def Obligations.TablesChangeOnlyByLoad : Prop :=
  ∀ (c : Instr) (s t : State), c.wf = true → exec c s = .next t → t.tables ≠ s.tables →
    let code (b : Byte) : Prop := ∃ f : Frame, c = .frameReceived .c f ∧ isRequest s .c f = true ∧ f.data.head? = some b
    c = .coldStart ∨ c = .recallPageRead ∨ c = .recallCompletion ∨ (∃ tag, c = .recall tag) ∨ code 0x05 ∨ code 0x07
    ∨ ∃ tag i, c = .commitMatch tag i ∨ c = .commitSlot tag i ∨ c = .commitRoleMap tag i ∨ c = .commitProfile tag i
        ∨ c = .commitCurve tag i ∨ c = .commitArmConfig tag i ∨ c = .commitTemplate tag i ∨ c = .commitChannel tag i
        ∨ c = .commitWindows tag i ∨ c = .commitDriveConfig tag i ∨ c = .commitSprayConfig tag i
        ∨ c = .commitPortConfig tag i

/-! ## Send channels and templates (09) -/

/-- What each template source reads at a build (R142 to R144): what its owner holds, and 0 at level 3 for the sources
that command motion. TOP_FAULT reads the code of the record offered (R164): of the unannounced records at or above the
notify threshold one of highest severity, and among those the one of lowest entry order; 0 when there is none. A frame
that enters a queue for a channel marks exactly the record it names announced, when it carries TOP_FAULT, and none
otherwise (R144). -/
def Obligations.SourcesReadTheirOwners : Prop :=
  (∀ (s : State) (n : Fin 48) (a : Arm),
     let x := s.arms.get a
     let moving (src : Source) (held : Int) : Prop := sourceValue s src = if s.faults.level = 3 then 0 else held
     moving .pumpStroke s.gov.p ∧ moving (.armValve a) x.valve ∧ moving (.armPressure a) x.pressure
     ∧ moving (.brushRpm a) x.scaled ∧ moving .sprayDuty s.spray.duty
     ∧ moving .bankMask ((if s.spray.banks.sl.isOpen then 1 else 0) + (if s.spray.banks.sr.isOpen then 2 else 0)
         + (if s.spray.banks.mb.isOpen then 4 else 0))
     ∧ sourceValue s (.slot n) = s.slotReads n ∧ sourceValue s .motorStroke = s.gov.motor
     ∧ sourceValue s .travelDir = s.gov.dir ∧ sourceValue s .cmdSpeed = s.gov.v * s.gov.dir
     ∧ sourceValue s .measSpeed = s.capture.s ∧ sourceValue s (.armState a) = x.state.code
     ∧ sourceValue s .volume = (s.spray.volume / 1000 : Nat) ∧ sourceValue s .engineRequest = s.alloc.request
     ∧ sourceValue s .responseLevel = s.faults.level.val ∧ sourceValue s .profile = s.selector.active.val
     ∧ (s.faults.top s.tables.drive.notifyThreshold = none → sourceValue s .topFault = 0)
     ∧ (∀ f, s.faults.top s.tables.drive.notifyThreshold = some f →
         sourceValue s .topFault = (f.kind.code * 256 + f.subject : Nat)))
  ∧ (∀ (f : Faults) (threshold : Fin 4),
       let candidate (r : FaultRec) : Prop := r ∈ f.records ∧ r.announced = false ∧ threshold ≤ r.severity
       (f.top threshold = none ↔ ∀ r, ¬candidate r)
       ∧ ∀ r, f.top threshold = some r → candidate r
           ∧ ∀ q, candidate q → q.severity < r.severity ∨ (q.severity = r.severity ∧ r.order ≤ q.order))
  ∧ (∀ (s : State) (ch : Fin 6) (n : Nat) (q : Port), FaultOrdersOk s →
       let t := s.template n
       let u := placeChannelFrame ch n q s
       let named := if t.places.any (fun p => p.source == .topFault) then s.faults.top s.tables.drive.notifyThreshold else none
       (∀ r, named = some r →
         u.faults.records = s.faults.records.map fun x => if x = r then { x with announced := true } else x)
       ∧ (named = none → u.faults = s.faults)
       ∧ u = { s with faults := { s.faults with places := u.faults.places, aggregate := u.faults.aggregate }
                      ports := s.ports.set q ((s.ports.get q).enter (buildFrame s t) (.channel ch))
                      channels := s.channels.set ch { s.channels[ch] with out := s.channels[ch].out + 1 } })

/-- The frame built from a template with one place (R141): its format, identifier and length, the place's field
holding the scaled source value saturated to the field, as a two's-complement number when signed, and every other bit
the template's constant. -/
def Obligations.FrameIsBuilt : Prop :=
  ∀ (s : State) (t : Template) (p : Place), t.places = [p] → 1 ≤ p.width → p.bitPos + p.width ≤ 8 * t.len → t.len ≤ 8 →
    let f := buildFrame s t
    let constant := leNat (t.bytes.toList.take t.len)
    let x : Int := Int.tdiv (sourceValue s p.source * p.mul) p.div + p.off
    let low : Int := if p.signed then -((2 ^ (p.width - 1) : Nat) : Int) else 0
    let high : Int := if p.signed then ((2 ^ (p.width - 1) : Nat) : Int) - 1 else ((2 ^ p.width : Nat) : Int) - 1
    let y : Int := if x < low then low else if high < x then high else x
    let got : Int := ((leNat f.data / 2 ^ p.bitPos % 2 ^ p.width : Nat) : Int)
    f.fmt = t.fmt ∧ f.id = t.id ∧ f.data.length = t.len
    ∧ (0 ≤ y → got = y) ∧ (y < 0 → got = y + (2 ^ p.width : Nat))
    ∧ leNat f.data % 2 ^ p.bitPos = constant % 2 ^ p.bitPos
    ∧ leNat f.data / 2 ^ (p.bitPos + p.width) = constant / 2 ^ (p.bitPos + p.width)

/-- INTERVAL_TIMER_EXPIRY (R147 to R151, R154): the timer is reloaded; a disabled channel takes nothing more, a
channel in a send keeps the trigger pending, and an IDLE one sends. In SINGLE mode it sends one frame of the template
at the position, built and queued on an ON port with a place, counted as sent on an OFF port, awaited in a full queue;
a frame outside the windows disables the channel with a SEND_WINDOW report. In SEQUENCE mode it offers the frames of
its run in order from the run start, until the last is taken, a queue is full, or one is refused. A send of which no
record is out is complete at once, and counted unless it was refused (R152, R153), stated where the count brings no
chain trigger. That a run holds a template is StepKeepsQueues. An expiry command brings time forward to the expiry
(log entry 1). -/
def Obligations.IntervalStartsASend : Prop :=
  ∀ (ch : Fin 6) (s : State) (r : Nat), s.power = .running → (s.chan ch).timer = some r →
    1 ≤ (s.tables.channels[ch]).runLen →
    let w := s.openedAt r
    let cfg := s.tables.channels[ch]
    let c := { w.channels[ch] with timer := if cfg.source = .interval then some (1000 * cfg.param) else none }
    let now (c : ChanRun) : State := { w with channels := w.channels.set ch c }
    let t := s.template c.position
    let port := w.ports.get t.port
    let inside : Prop := insideWindows s t.port t.fmt t.id = true
    let fresh : Prop := c.enable = true ∧ c.state = .idle
    let ended (v u : State) : Prop :=
      let y := v.channels[ch]
      (y.state ≠ .sending ∨ y.out ≠ 0 → u = v)
      ∧ (y.state = .sending → y.out = 0 → y.stop = true ∨ cfg.continuous = true ∨ cfg.chain = none → u = sendEnded ch v)
    Completes (.intervalTimerExpiry ch) s fun u =>
      (c.enable = false → u = now c)
      ∧ (c.enable = true → c.state ≠ .idle → u = now { c with pending := true })
      ∧ (fresh → cfg.sequence = false → c.stop = false → inside → port.on = true → port.full = false →
          u = { now { c with pending := false, state := .sending, out := c.out + 1
                             position := if c.position + 1 < cfg.runStart + cfg.runLen then c.position + 1
                                         else cfg.runStart } with
                ports := w.ports.set t.port (port.enter (buildFrame (now c) t) (.channel ch)), faults := u.faults }
          ∧ u.faults = (announceTop t w).faults ∧ (t.carriesTop = false → u.faults = w.faults))
      ∧ (fresh → cfg.sequence = false → inside → port.on = true → port.full = true →
          u = { now { c with pending := false, state := .stalled, awaited := some c.position } with
                ports := w.ports.set t.port { port with holders := port.holders ++ [.channel ch] } })
      ∧ (fresh → cfg.sequence = false → inside → port.on = false → c.stop = false →
          ended (now { c with pending := false, state := .sending
                              position := if c.position + 1 < cfg.runStart + cfg.runLen then c.position + 1
                                          else cfg.runStart }) u)
      ∧ (fresh → cfg.sequence = false → ¬inside →
          ended { reportOnce .sendWindow ch.val 1 w with
                  channels := w.channels.set ch { c with pending := false, state := .sending, enable := false
                                                         stop := true } } u)
      ∧ (fresh → cfg.sequence = true → c.stop = false →
          ∃ v, (∀ k, k ≤ cfg.runLen → RunOffered ch { c with pending := false } cfg.runStart k w v) ∧ ended v u)

/-- SEND_COMPLETION of a send whose frames have all left (R152, R153): the channel is IDLE; a stop-marked send is not
counted; the remaining count of a channel that is not continuous falls by 1, and at 0 the channel disables itself, is
done, and with notify set marks FAULT_CHANGE. Stated without a pending trigger and without a chain target.
SEND_COMPLETION alone is log entry 25, of a send that is not complete log entry 24. -/
def Obligations.SendIsCompleted : Prop :=
  ∀ (ch : Fin 6) (s : State), s.power = .running →
    let cfg := s.tables.channels[ch]
    let c := s.channels[ch]
    (c.state = .sending → c.out = 0 → c.pending = false → cfg.chain = none →
      Completes (.sendCompletion ch) s fun u =>
        let left := c.remaining - 1
        let counted : Bool := !c.stop && !cfg.continuous
        let ends : Bool := counted && decide (left = 0)
        u = { s.opened with
              channels := s.channels.set ch { c with
                state := .idle, stop := false, remaining := if counted then left else c.remaining
                enable := if ends then false else c.enable, done := if ends then true else c.done }
              ev := u.ev }
        ∧ u.ev = { EventMarks.none with faultChange := ends && cfg.notify })
    ∧ (c.state ≠ .sending ∨ c.out ≠ 0 → exec (.sendCompletion ch) s = .next s)

/-! ## The fault list (10) -/

/-- A condition reported begun (R156 to R158): the record of its kind and subject takes it; a merged one is counted by
the aggregate; otherwise it gets a new record in the lowest free general place, or in place of the oldest record of
severity 0 or 1 that is not above it, or is merged into the aggregate, which is made when there is none. A report of a
condition that waits to be observed again after a restart confirms its record: it is not counted, and a higher
severity is taken (R166). Nothing but the list and the event's marks changes. What is dropped with an evicted record
is log entry 32. -/
def Obligations.ConditionBegins : Prop :=
  (∀ (k : Kind) (n : Nat) (sev : Fin 4) (s : State), s.faults.waits k n = true → FaultListOk s →
    let f := { s.faults with unconfirmed := s.faults.unconfirmed.filter fun u => !(u.kind == k && u.subject == n) }
    let t := reportBegun k n sev s
    let confirmed (r : FaultRec) : FaultRec :=
      { r with latched := false
               severity := if r.severity < sev then sev else r.severity
               announced := if r.severity < sev then false else r.announced }
    let known (i : Fin 15) (r : FaultRec) : Prop := f.places[i] = some r ∧ r.kind = k ∧ r.subject = n
    (∀ i r, known i r → t.faults = { f with places := f.places.set i (some (confirmed r)) })
    ∧ (∀ a, (∀ i r, ¬known i r) → f.mergedHas k n = true → f.aggregate = some a →
        t.faults = { f with aggregate := some (confirmed a) })
    ∧ t.faults.waits k n = false ∧ t.faults.holds k n = true ∧ t = { s with faults := t.faults, ev := t.ev })
  ∧ ∀ (k : Kind) (n : Nat) (sev : Fin 4) (s : State), s.faults.waits k n = false → FaultListOk s →
    let f := s.faults
    let t := reportBegun k n sev s
    let new : FaultRec :=
      { kind := k, subject := n, severity := sev, ack := k.ack, latched := false, count := 1
        firstSeen := s.timeUs / 1000, order := f.nextOrder, announced := false, merged := [] }
    let taken (r : FaultRec) : FaultRec :=
      { r with latched := false, count := min (r.count + 1) 255
               severity := if r.severity < sev then sev else r.severity
               announced := if r.severity < sev then false else r.announced }
    let known (i : Fin 15) (r : FaultRec) : Prop := f.places[i] = some r ∧ r.kind = k ∧ r.subject = n
    let unknown : Prop := (∀ i r, ¬known i r) ∧ f.mergedHas k n = false
    let mayGo (i : Fin 15) (r : FaultRec) : Prop := f.places[i] = some r ∧ r.severity ≤ 1 ∧ r.severity ≤ sev
    (∀ i r, known i r → t.faults = { f with places := f.places.set i (some (taken r)) })
    ∧ (∀ a, (∀ i r, ¬known i r) → f.mergedHas k n = true → f.aggregate = some a →
        t.faults = { f with aggregate := some (taken a) })
    ∧ (∀ i : Fin 15, unknown → f.places[i] = none → (∀ j : Fin 15, j < i → f.places[j] ≠ none) →
        t.faults = { f with places := f.places.set i (some new), nextOrder := f.nextOrder + 1 })
    ∧ (∀ i r, unknown → (∀ j : Fin 15, f.places[j] ≠ none) → mayGo i r → (∀ j q, mayGo j q → j ≠ i → r.order < q.order) →
        t.faults.places = f.places.set i (some new) ∧ t.faults.nextOrder = f.nextOrder + 1
        ∧ t.faults.aggregate = f.aggregate)
    ∧ (unknown → (∀ j : Fin 15, f.places[j] ≠ none) → (∀ i r, ¬mayGo i r) →
        t.faults.places = f.places
        ∧ t.faults.aggregate = some (match f.aggregate with
            | none => { new with kind := .faultListFull, subject := 0, ack := true, merged := [(k, n)] }
            | some a => { taken a with merged := a.merged ++ [(k, n)] }))
    ∧ t.faults.holds k n = true ∧ t.faults.level = f.level ∧ t.faults.latch = f.latch
    ∧ t = { s with faults := t.faults, ev := t.ev }

/-- A condition reported ended (R159): a SELF record leaves the list, an ACK record is LATCHED, a merged condition
leaves the merged set, which when empty leaves the aggregate LATCHED; without a record the end is ignored.
DETECTION_TIME_EXPIRY of a kept condition that was not observed again (R166) ends it so; of one that waits no more it
changes nothing (log entry 24). The detection time's last instant is log entry 20. An expiry command brings time
forward to the expiry (log entry 1). -/
def Obligations.ConditionEnds : Prop :=
  (∀ (k : Kind) (n : Nat) (s : State), k ≠ .faultListFull → FaultListOk s →
     let f := s.faults
     let t := reportEnded k n s
     let known (i : Fin 15) (r : FaultRec) : Prop := f.places[i] = some r ∧ r.kind = k ∧ r.subject = n
     (∀ i r, known i r → t.faults.places = f.places.set i (if r.ack then some { r with latched := true } else none)
         ∧ t.faults.aggregate = f.aggregate)
     ∧ (∀ a, (∀ i r, ¬known i r) → f.mergedHas k n = true → f.aggregate = some a →
         t.faults.places = f.places
         ∧ t.faults.aggregate = some { a with merged := a.merged.erase (k, n)
                                              latched := a.latched || (a.merged.erase (k, n)).isEmpty })
     ∧ ((∀ i r, ¬known i r) → f.mergedHas k n = false → t.faults.places = f.places ∧ t.faults.aggregate = f.aggregate)
     ∧ t.faults.holds k n = false ∧ t = { s with faults := t.faults, ev := t.ev })
  ∧ (∀ (s : State) (k : Kind) (n : Nat),
       (∀ l m u r, s.power = .running → s.faults.unconfirmed = l ++ u :: m →
         (∀ v ∈ l, ¬(v.kind = k ∧ v.subject = n)) → u.kind = k → u.subject = n → u.timer = some r →
         Completes (.detectionTimeExpiry k n) s fun v =>
           v = reportEnded k n (s.openedAt r) ∧ v.faults.waits k n = false
           ∧ (FaultListOk s → k ≠ .faultListFull → v.faults.holds k n = false))
       ∧ (s.faults.waits k n = false → exec (.detectionTimeExpiry k n) s = .next s))

/-! ## The service unit (11) -/

/-- The common checks of a request (R167) in their order, by the reply each gives: UNKNOWN_REQUEST for a code outside
the table, echoing the tag or 0; TOO_SHORT below the least length, with tag 0 for a frame of one byte (log entry 17);
BUSY during a STORE or RECALL, but for STATUS and READ_ITEM; NOT_OPEN without the session. The request is not carried
out: only its reply enters the C-port queue. A frame of length 0 and a request while a reply waits or the restart mark
is set are discarded (R168, R177); which of them restarts the inactivity timer is log entry 18. A request command acts
as its frame (log entry 26). -/
def Obligations.RequestsAreJudged : Prop :=
  ∀ s : State, s.power = .running → s.ports.c.on = true → s.ports.c.full = false → s.service.replies = [] →
    s.service.restart = .clear →
    let gives (c : Instr) (code tag : Byte) (st : Status) : Prop := exec c s = .next (finish (replied code tag st [] s.taken))
    let frame (data : List Byte) : Instr := .frameReceived .c ⟨s.tables.ports.reqFmt, s.tables.ports.reqId, data⟩
    let taken (data : List Byte) : Prop := (⟨s.tables.ports.reqFmt, s.tables.ports.reqId, data⟩ : Frame).wf = true
    (∀ code tag, isRequestCode code = false →
      gives (.unknownRequest code (some tag)) code tag .unknownRequest ∧ gives (.unknownRequest code none) code 0 .unknownRequest)
    ∧ (∀ (code tag : Byte) (rest : List Byte), taken (code :: tag :: rest) →
        (isRequestCode code = false → gives (frame (code :: tag :: rest)) code tag .unknownRequest)
        ∧ (∀ n, leastLength code.toNat = some n → rest.length + 2 < n → gives (frame (code :: tag :: rest)) code tag .tooShort)
        ∧ (∀ n, leastLength code.toNat = some n → n ≤ rest.length + 2 → s.store.op ≠ .idle → code ≠ 0x03 → code ≠ 0x08 →
            gives (frame (code :: tag :: rest)) code tag .busy)
        ∧ (∀ n, leastLength code.toNat = some n → n ≤ rest.length + 2 → s.store.op = .idle → s.service.session = false →
            code = 0x04 ∨ code = 0x05 ∨ code = 0x06 ∨ code = 0x07 →
            gives (frame (code :: tag :: rest)) code tag .notOpen))
    ∧ (∀ code : Byte, taken [code] →
        gives (frame [code]) code 0 (if isRequestCode code then .tooShort else .unknownRequest))
    ∧ (taken [] → exec (frame []) s = .next (finish s.opened))
    ∧ (∀ (data : List Byte) (x : Service), taken data → data ≠ [] → x.replies ≠ [] ∨ x.restart ≠ .clear →
        exec (frame data) { s with service := x } = .next (finish { s with service := x }.taken))

/-- OPEN_CONFIG, CLOSE_CONFIG and INACTIVITY_TIMER_EXPIRY (R169, R170). The session opens with the governor at rest
and NEUTRAL or HELD, PARK fresh and engaged (not asked while STORE_INVALID is listed) and every fitted arm STOWED; it
starts the inactivity timer, clears the stage buffer and holds the governor. NOT_PARKED and ARMS_OUT leave everything;
an open session is answered OK. Closing stops the timer. A request command acts as its frame (log entry 26). An expiry
command brings time forward to the expiry (log entry 1). -/
def Obligations.SessionOpensAndCloses : Prop :=
  ∀ (s : State) (tag : Byte), ServiceReady s →
    let park := s.role .park
    let parked : Prop := (s.gov.state = .neutral ∨ s.gov.state = .held) ∧ s.capture.s.natAbs ≤ 30
      ∧ ((park.fresh = true ∧ park.value ≠ 0) ∨ ∃ r ∈ s.faults.records, r.kind = .storeInvalid)
    let stowed : Prop := ∀ a, (s.tables.arms.arms.get a).fitted = true → (s.arms.get a).state = .stowed
    (s.service.session = false → parked → stowed →
      exec (.openConfig tag) s = .next (finish (replied 0x01 tag .ok [] (enterHeld
        { s.opened with service := { s.service with session := true, inactivityT := some 60000000
                                                    stage := Vector.replicate 64 0 } }))))
    ∧ (s.service.session = false → ¬parked →
        exec (.openConfig tag) s = .next (finish (replied 0x01 tag .notParked [] s.taken)))
    ∧ (s.service.session = false → parked → ¬stowed →
        exec (.openConfig tag) s = .next (finish (replied 0x01 tag .armsOut [] s.taken)))
    ∧ (s.service.session = true → exec (.openConfig tag) s = .next (finish (replied 0x01 tag .ok [] s.taken)))
    ∧ exec (.closeConfig tag) s = .next (finish (replied 0x02 tag .ok []
        { s.opened with service := { s.service with session := false, inactivityT := none } }))
    ∧ (∀ r, s.service.inactivityT = some r →
        exec .inactivityTimerExpiry s = .next (finish
          { s.openedAt r with service := { s.service with session := false, inactivityT := none } }))

/-- READ_ITEM and STAGE (R171, R172). Chunk 0 takes a snapshot of the record into the read buffer and answers its
first five bytes; a later chunk is answered from the snapshot of its kind and index, and otherwise gives BAD_VALUE; a
kind, index or chunk out of range gives BAD_ITEM or BAD_VALUE. STAGE writes four bytes at an offset up to 60. A
request command acts as its frame (log entry 26); the counter of free values, and what a record shows where 11.7 is
silent, are log entries 21 and 22. -/
def Obligations.ReadAndStage : Prop :=
  ∀ (s : State) (tag kind index chunk : Byte), ServiceReady s →
    let gives (st : Status) (data : List Byte) (v : State) : Prop :=
      exec (.readItem tag kind index chunk) s = .next (finish (replied 0x03 tag st data v))
    (Item.ofCode kind.toNat = none → gives .badItem [] s.taken)
    ∧ (∀ k, Item.ofCode kind.toNat = some k →
        (k.count ≤ index.toNat ∨ (k.recordLength - 1) / 5 < chunk.toNat → gives .badValue [] s.taken)
        ∧ (index.toNat < k.count → chunk = 0 →
            let b := recordOf s k index.toNat
            gives .ok (b.take 5) { s.taken with service.readBuf := some ⟨k, index.toNat, b⟩, choices := s.choices + 1 })
        ∧ (∀ b, index.toNat < k.count → chunk ≠ 0 → chunk.toNat ≤ (k.recordLength - 1) / 5 →
            s.service.readBuf = some ⟨k, index.toNat, b⟩ →
            gives .ok ((b.drop (5 * chunk.toNat)).take 5) s.taken)
        ∧ (chunk ≠ 0 → (∀ b, s.service.readBuf ≠ some ⟨k, index.toNat, b⟩) → gives .badValue [] s.taken))
    ∧ ∀ (offset d0 d1 d2 d3 : Byte), s.service.session = true →
        let stage := s.service.stage
        (offset.toNat ≤ 60 →
          ∃ v : Vector Byte 64,
            exec (.stage tag offset d0 d1 d2 d3) s
              = .next (finish (replied 0x04 tag .ok [] { s.taken with service.stage := v }))
            ∧ ∀ i : Fin 64, v[i] =
                if i.val = offset.toNat then d0 else if i.val = offset.toNat + 1 then d1
                else if i.val = offset.toNat + 2 then d2 else if i.val = offset.toNat + 3 then d3 else stage[i])
        ∧ (60 < offset.toNat →
            exec (.stage tag offset d0 d1 d2 d3) s = .next (finish (replied 0x04 tag .badValue [] s.taken)))

/-- The COMMITs that take effect (R173 with 01 R12, R19, R20; 02 R28, R33, R37; 03 R40; 04 R55, R56; 06 R88; 08 R126;
09 R140, R145): the record read from the stage buffer replaces the working record of its index, what its chapter adds
follows, and the OK is sent under the port configuration then in force. Each clause carries the conditions of its
item; DRIVE_CONFIG resets speed capture and ends its conditions (R40), those kept over a restart too (log entry 40);
ARM_CONFIG makes an arm no longer fitted STOWED, its commands 0, its timers stopped, out of the circuit and its
conditions ended (one kept over a restart too, log entry 40), and one newly fitted INIT (R88); MATCH removes the
sender records of its entry, whose slots are voted anew, and SLOT those of its slot (R33). Whole states are given for
MATCH and SLOT with FAULT_ACK reading as before. A request command acts as its frame (log entry 26); the reset of
capture is log entry 33. -/
def Obligations.CommitsTakeEffect : Prop :=
  ∀ (s : State) (tag index : Byte), ServiceReady s → s.service.session = true →
    let ok (c : Instr) (v : State) : Prop := exec c s = .next (finish (replied 0x05 tag .ok [] v))
    let t := s.taken
    let at' (n : Nat) : List Byte := stagedBytes s n
    (∀ (i : Fin 4) x, index.toNat = i → Profile.decode (at' 31) = some x →
      ok (.commitProfile tag index) { t with tables := { t.tables with profiles := t.tables.profiles.set i x } })
    ∧ (∀ (i : Fin 12) x, index.toNat = i → Curve.decode (at' 20) = some x →
      ok (.commitCurve tag index) { t with tables := { t.tables with curves := t.tables.curves.set i x } })
    ∧ (∀ x, index = 0 → decodeWindows (at' 36) = some x →
      ok (.commitWindows tag index) { t with tables := { t.tables with windows := x } })
    ∧ (∀ x, index = 0 → SprayConfig.decode (at' 8) = some x →
      ok (.commitSprayConfig tag index) { t with tables := { t.tables with spray := x } })
    ∧ (∀ x, index = 0 → PortConfig.decode (at' 12) = some x →
      ok (.commitPortConfig tag index) { t with tables := { t.tables with ports := x } })
    ∧ (∀ x, index = 0 → decodeRoles (at' 18) = some x →
      ok (.commitRoleMap tag index) (weighAck { t with tables := { t.tables with roles := x } }))
    ∧ (∀ x, index = 0 → DriveConfig.decode (at' 18) = some x →
      ok (.commitDriveConfig tag index) (resetCapture { t with tables := { t.tables with drive := x } }))
    ∧ (∀ x, index = 0 → ArmConfig.decode (at' 59) = some x →
      ok (.commitArmConfig tag index) (actOnFitted t.tables.arms { t with tables := { t.tables with arms := x } }))
    ∧ (∀ x, index = 0 → DriveConfig.decode (at' 18) = some x →
      ∃ v, ok (.commitDriveConfig tag index) v
        ∧ v.capture.a = CapRun.restarted ∧ v.capture.b = CapRun.restarted ∧ v.capture.s = 0
        ∧ v.capture.disagree = false ∧ v.capture.disagreeT = none ∧ v.capture.disagreeBegun = false
        ∧ v.capture.noneBegun = (!x.capA.fitted && !x.capB.fitted)
        ∧ (FaultListOk s → v.faults.holds .speedDisagree 0 = false ∧ v.faults.holds .speedChannelLost 0 = false
            ∧ v.faults.holds .speedChannelLost 1 = false
            ∧ (s.capture.noneBegun = true → v.capture.noneBegun = false → v.faults.holds .speedNone 0 = false))
        ∧ (s.capture.noneBegun = false → v.capture.noneBegun = true → v.faults.holds .speedNone 0 = true)
        ∧ v = { t with tables := { t.tables with drive := x }, capture := v.capture, faults := v.faults, ev := v.ev })
    ∧ (∀ x, index = 0 → ArmConfig.decode (at' 59) = some x → LiftCircuitOk s →
      ∃ v, ok (.commitArmConfig tag index) v
        ∧ (∀ a : Arm,
            let was := (s.tables.arms.arms.get a).fitted
            let is := (x.arms.get a).fitted
            let r := s.arms.get a
            (was = is → v.arms.get a = r)
            ∧ (was = true → is = false →
                v.arms.get a = { r with state := .stowed, valve := 0, pressure := 0, rpm := 0, scaled := 0, motionT := none
                                        floatT := none, waitT := none, obstructed := false, starved := false }
                ∧ (FaultListOk s → v.faults.holds .liftStarved (armNumber a) = false
                    ∧ v.faults.holds .armObstructed (armNumber a) = false))
            ∧ (was = false → is = true →
                v.arms.get a = { r with state := .init, valve := 0, pressure := 0, rpm := 0, scaled := 0 })
            ∧ (a ∈ v.lift.queue ↔ a ∈ s.lift.queue ∧ is = true)
            ∧ (v.lift.holder = some a ↔ s.lift.holder = some a ∧ is = true)
            ∧ ((v.spray.banks.get a).isOpen = true ↔ (s.spray.banks.get a).isOpen = true
                ∧ ((v.arms.get a).state = .working ∨ (v.arms.get a).state = .float)))
        ∧ v.lift.queue.Sublist s.lift.queue
        ∧ v = { t with tables := { t.tables with arms := x }, arms := v.arms
                       lift := { s.lift with holder := v.lift.holder, queue := v.lift.queue }
                       spray := v.spray, faults := v.faults, ev := v.ev }
        ∧ v.spray = { s.spray with banks := v.spray.banks, q := v.spray.q, duty := v.spray.duty })
    ∧ (∀ (i : Fin 32) x, index.toNat = i → Template.decode (at' 64) = some x →
      (∀ ch : Fin 6, (s.channels[ch].enable = true ∨ s.channels[ch].state ≠ .idle) →
        ¬((s.tables.channels[ch]).runStart ≤ i.val ∧ i.val < (s.tables.channels[ch]).runStart + (s.tables.channels[ch]).runLen)) →
      ok (.commitTemplate tag index) { t with tables := { t.tables with templates := t.tables.templates.set i x } })
    ∧ (∀ (i : Fin 6) x, index.toNat = i → ChannelCfg.decode (at' 12) = some x →
      s.channels[i].enable = false → s.channels[i].state = .idle →
      ok (.commitChannel tag index)
        { t with tables := { t.tables with channels := t.tables.channels.set i x }
                 channels := t.channels.set i
                   { enable := x.startEnabled, pending := false, state := .idle, stop := false, remaining := x.reload
                     position := x.runStart, out := 0, done := false
                     timer := if x.source = .interval then some (1000 * x.param) else none, awaited := none } })
    ∧ (∀ (i : Fin 96) x, index.toNat = i → MatchEntry.decode (at' 64) = some x → x.voteOk s.tables.slots = true →
      (∀ (k : Fin 24) r, s.senders[k] = some r → r.entry ≠ i) → (s.role .faultAck).value = s.ackReading →
      ok (.commitMatch tag index) { t with tables := { t.tables with entries := t.tables.entries.set i x } })
    ∧ (∀ (i : Fin 96) x, index.toNat = i → MatchEntry.decode (at' 64) = some x → x.voteOk s.tables.slots = true →
      let gone (r : SenderRec) : Prop := r.entry = i
      let served (n : Fin 48) : Prop := ∃ (k : Fin 24) (r : SenderRec), s.senders[k] = some r ∧ gone r ∧ r.slot = n
      ∃ v, ok (.commitMatch tag index) v
        ∧ v.tables = { s.tables with entries := s.tables.entries.set i x }
        ∧ v.senders = s.senders.map (fun o => o.filter fun r => r.entry != i)
        ∧ (∀ n : Fin 48,
            let c := s.tables.slots[n]
            let fresh := freshSenders v n
            (¬served n ∨ c.vote = .none → v.slots[n] = s.slots[n])
            ∧ (served n → c.vote ≠ .none → fresh.length < c.minFresh → v.slots[n].last = s.slots[n].last
                ∧ v.slots[n].status = (if s.slots[n].status = .fresh then .stale else s.slots[n].status))
            ∧ (served n → c.vote ≠ .none → c.minFresh ≤ fresh.length → fresh ≠ [] →
                v.slots[n].status = .fresh ∧ ∃ p ∈ fresh, v.slots[n].last = p.value))
        ∧ (FaultListOk s → (∃ n, served n) → v.faults.holds .senderTableFull 0 = false)
        ∧ v = { t with tables := v.tables, senders := v.senders, slots := v.slots, faults := v.faults
                       ackReading := v.ackReading, gov := v.gov, arms := v.arms, ev := v.ev })
    ∧ (∀ (i : Fin 48) x, index.toNat = i → SlotCfg.decode (at' 23) = some x → slotVoteOk s.tables i x = true →
      ∃ v, ok (.commitSlot tag index) v
        ∧ v.tables = { s.tables with slots := s.tables.slots.set i x }
        ∧ v.senders = s.senders.map (fun o => o.filter fun r => r.slot != i)
        ∧ v.slots = s.slots.set i { status := .never, last := x.dflt, clamped := false, evenSeen := false, oddSeen := false
                                    timer := if x.timeout = 0 then none else some (1000 * x.timeout) }
        ∧ (FaultListOk s → v.faults.holds .signalStale i.val = false ∧ v.faults.holds .signalDisagree i.val = false
            ∧ ((∃ (k : Fin 24) (r : SenderRec), s.senders[k] = some r ∧ r.slot = i) → v.faults.holds .senderTableFull 0 = false))
        ∧ v = { t with tables := v.tables, senders := v.senders, slots := v.slots, faults := v.faults
                       ackReading := v.ackReading, gov := v.gov, arms := v.arms, ev := v.ev })
    ∧ (∀ (i : Fin 48) x, index.toNat = i → SlotCfg.decode (at' 23) = some x → slotVoteOk s.tables i x = true →
      (∀ (k : Fin 24) r, s.senders[k] = some r → r.slot ≠ i) → s.tables.roles[Role.faultAck.place] ≠ some i →
      (s.role .faultAck).value = s.ackReading →
      ok (.commitSlot tag index) (reportEnded .signalDisagree i.val (reportEnded .signalStale i.val
        { t with tables := { t.tables with slots := t.tables.slots.set i x }
                 slots := t.slots.set i { status := .never, last := x.dflt, clamped := false, evenSeen := false
                                          oddSeen := false
                                          timer := if x.timeout = 0 then none else some (1000 * x.timeout) } })))

/-- The COMMITs that are refused (R173): BAD_ITEM for a kind outside the table or read only, BAD_VALUE for an index or
a staged record its chapter refuses, IN_USE for a channel in use and a template in such a channel's run. The working
tables and everything but the inactivity timer stand. A request command acts as its frame (log entry 26). -/
def Obligations.CommitsRefused : Prop :=
  ∀ (s : State) (tag kind index : Byte), ServiceReady s → s.service.session = true →
    let gives (c : Instr) (st : Status) : Prop := exec c s = .next (finish (replied 0x05 tag st [] s.taken))
    let frame : Instr := .frameReceived .c ⟨s.tables.ports.reqFmt, s.tables.ports.reqId, [0x05, tag, kind, index]⟩
    let at' (n : Nat) : List Byte := stagedBytes s n
    ((s.tables.ports.reqFmt = .std → s.tables.ports.reqId.toNat ≤ 0x7FF) →
      Item.ofCode kind.toNat = none ∨ Item.ofCode kind.toNat = some .capture ∨ Item.ofCode kind.toNat = some .fault
        ∨ Item.ofCode kind.toNat = some .sender → gives frame .badItem)
    ∧ (96 ≤ index.toNat ∨ MatchEntry.decode (at' 64) = none → gives (.commitMatch tag index) .badValue)
    ∧ (∀ x, MatchEntry.decode (at' 64) = some x → x.voteOk s.tables.slots = false → gives (.commitMatch tag index) .badValue)
    ∧ (48 ≤ index.toNat ∨ SlotCfg.decode (at' 23) = none → gives (.commitSlot tag index) .badValue)
    ∧ (∀ (i : Fin 48) x, index.toNat = i → SlotCfg.decode (at' 23) = some x → slotVoteOk s.tables i x = false →
        gives (.commitSlot tag index) .badValue)
    ∧ (index ≠ 0 ∨ decodeRoles (at' 18) = none → gives (.commitRoleMap tag index) .badValue)
    ∧ (4 ≤ index.toNat ∨ Profile.decode (at' 31) = none → gives (.commitProfile tag index) .badValue)
    ∧ (12 ≤ index.toNat ∨ Curve.decode (at' 20) = none → gives (.commitCurve tag index) .badValue)
    ∧ (index ≠ 0 ∨ ArmConfig.decode (at' 59) = none → gives (.commitArmConfig tag index) .badValue)
    ∧ (32 ≤ index.toNat ∨ Template.decode (at' 64) = none → gives (.commitTemplate tag index) .badValue)
    ∧ (6 ≤ index.toNat ∨ ChannelCfg.decode (at' 12) = none → gives (.commitChannel tag index) .badValue)
    ∧ (index ≠ 0 ∨ decodeWindows (at' 36) = none → gives (.commitWindows tag index) .badValue)
    ∧ (index ≠ 0 ∨ DriveConfig.decode (at' 18) = none → gives (.commitDriveConfig tag index) .badValue)
    ∧ (index ≠ 0 ∨ SprayConfig.decode (at' 8) = none → gives (.commitSprayConfig tag index) .badValue)
    ∧ (index ≠ 0 ∨ PortConfig.decode (at' 12) = none → gives (.commitPortConfig tag index) .badValue)
    ∧ (∀ (i : Fin 32) (ch : Fin 6) x, index.toNat = i → Template.decode (at' 64) = some x →
        (s.channels[ch].enable = true ∨ s.channels[ch].state ≠ .idle) →
        (s.tables.channels[ch]).runStart ≤ i.val → i.val < (s.tables.channels[ch]).runStart + (s.tables.channels[ch]).runLen →
        gives (.commitTemplate tag index) .inUse)
    ∧ (∀ (i : Fin 6) x, index.toNat = i → ChannelCfg.decode (at' 12) = some x →
        (s.channels[i].enable = true ∨ s.channels[i].state ≠ .idle) → gives (.commitChannel tag index) .inUse)

/-- The requests that need no session (R155, R160, R175 to R177; 02 R33; 08 R136), each answered after it has acted:
STATUS of pages 0 to 2, ACK_FAULTS, CLEAR_VOLUME, the enable, disable and trigger of a send channel, DROP_SENDERS, and
RESTART, which is NOT_PARKED unless the session is open or the machine rests, and whose OK carries the restart mark. A
trigger is ignored by a disabled channel, kept pending by one in a send, and starts the send of an IDLE SINGLE
channel, shown where the frame finds a place on the B-port; that a run holds a template is StepKeepsQueues. A request
command acts as its frame (log entry 26). -/
def Obligations.OtherRequestsAct : Prop :=
  ∀ (s : State) (tag : Byte), ServiceReady s →
    let t := s.taken
    let gives (c : Instr) (code : Byte) (st : Status) (data : List Byte) (v : State) : Prop :=
      exec c s = .next (finish (replied code tag st data v))
    let rests : Prop := (s.gov.state = .neutral ∨ s.gov.state = .held) ∧ s.capture.s.natAbs ≤ 30
    gives (.status tag 0) 0x08 .ok
      [byteOf s.faults.level.val, byteOf s.gov.state.code, byteOf s.cause.code, byteOf s.selector.active.val,
       if s.service.session then 1 else 0] t
    ∧ gives (.status tag 1) 0x08 .ok (leBytes 2 s.spray.duty ++ [byteOf s.spray.mask] ++ leBytes 2 s.alloc.request) t
    ∧ gives (.status tag 2) 0x08 .ok (leBytes 4 (min (s.spray.volume / 1000) (2 ^ 32 - 1))) t
    ∧ (∀ page : Byte, 2 < page.toNat → gives (.status tag page) 0x08 .badValue [] t)
    ∧ gives (.clearVolume tag) 0x0C .ok [] { t with spray := { t.spray with volume := 0 } }
    ∧ (∃ v, gives (.ackFaults tag) 0x09 .ok [] v
        ∧ v.faults = { s.faults with places := s.faults.places.map fun o => o.filter fun r => !r.latched
                                     aggregate := s.faults.aggregate.filter fun r => !r.latched }
        ∧ v.gov = { s.gov with lock := false }
        ∧ (∀ a, v.arms.get a = if (s.arms.get a).state = .faulted then { s.arms.get a with state := .init } else s.arms.get a)
        ∧ v = { t with faults := v.faults, gov := v.gov, arms := v.arms, ev := v.ev })
    ∧ (∀ (ch : Fin 6) (n : Byte), n.toNat = ch →
        let c := s.channels[ch]
        let cfg := s.tables.channels[ch]
        let busy : Bool := c.state != .idle
        gives (.channelControlEnable tag n) 0x0A .ok []
          { t with channels := t.channels.set ch { c with
              enable := true, done := false, remaining := cfg.reload, position := cfg.runStart
              timer := if cfg.source = .interval then some (1000 * cfg.param) else c.timer, stop := c.stop || busy } }
        ∧ gives (.channelControlDisable tag n) 0x0A .ok []
          { t with channels := t.channels.set ch { c with enable := false, pending := false, stop := c.stop || busy } }
        ∧ (c.enable = false → gives (.channelControlTrigger tag n) 0x0A .ok [] t)
        ∧ (c.enable = true → c.state ≠ .idle →
            gives (.channelControlTrigger tag n) 0x0A .ok [] { t with channels := t.channels.set ch { c with pending := true } })
        ∧ (c.enable = true → c.state = .idle → cfg.sequence = false → c.stop = false → 1 ≤ cfg.runLen →
            let m := s.template c.position
            let p := s.ports.b
            m.port = .b → insideWindows s .b m.fmt m.id = true → p.on = true → p.full = false → m.carriesTop = false →
            gives (.channelControlTrigger tag n) 0x0A .ok []
              { t with channels := t.channels.set ch { c with pending := false, state := .sending, out := c.out + 1
                                                              position := cfg.next c.position }
                       ports := t.ports.set .b (p.enter (buildFrame t m) (.channel ch)) }))
    ∧ (∀ n : Byte, 6 ≤ n.toNat → gives (.channelControlEnable tag n) 0x0A .badValue [] t
        ∧ gives (.channelControlDisable tag n) 0x0A .badValue [] t ∧ gives (.channelControlTrigger tag n) 0x0A .badValue [] t)
    ∧ (∀ n : Byte, n.toNat < 48 ∨ n = 255 →
        let gone (r : SenderRec) : Bool := n == 255 || r.slot.val == n.toNat
        ∃ v, gives (.dropSenders tag n) 0x0D .ok [] v
          ∧ v.senders = s.senders.map (fun o => o.filter fun r => !gone r)
          ∧ (∀ k : Fin 48, (∀ (i : Fin 24) (r : SenderRec), s.senders[i] = some r → gone r = true → r.slot ≠ k) →
              v.slots[k] = s.slots[k])
          ∧ v.tables = s.tables ∧ v.ports = s.ports)
    ∧ (∀ n : Byte, 48 ≤ n.toNat → n ≠ 255 → gives (.dropSenders tag n) 0x0D .badValue [] t)
    ∧ (s.service.session = true ∨ rests →
        exec (.restart tag) s = .next (finish
          { replied 0x0B tag .ok [] t with service.restart := .queued s.ports.c.nextOrder }))
    ∧ (s.service.session = false → ¬rests → gives (.restart tag) 0x0B .notParked [] t)

/-! ## Table store (12), item records (11) -/

/-- A STORE (R174, R180, R181): at its start the header is blank, image valid clear and the first page's step of 4 ms
in progress; each record page takes its 64 bytes and passes the step on, the header page last; the header's step
completes the store with its OK, image valid set and STORE_INVALID ended; a page that fails its read-back ends it with
STORE_FAIL. A store in flight without a deferred reply makes none. SLEEP follows when it is due (R184), after the
whole of the event (log entry 48). What a failed page leaves is log entry 6, STORE_COMPLETION alone log entry 25. A
request command acts as its frame (log entry 26). An expiry command brings time forward to the expiry (log entry 1).
-/
def Obligations.StoreRuns : Prop :=
  ∀ s : State, s.power = .running → RecordPagesOk s →
    (∀ tag, ServiceReady s → s.service.session = true →
      let image := s.tables.image
      (image.length ≤ 6336 →
        let first : StoreRun := { image := image, header := s.tables.header image
                                  page := if image.length = 0 then 0 else 1, timer := some 4000 }
        exec (.store tag) s = .next (finish { s.taken with
          service := { s.taken.service with deferred := some (0x06, tag) }
          nvm := { s.nvm with header := .blank }
          store := { imageValid := false, op := .storing first } }))
      ∧ (6336 < image.length → exec (.store tag) s = .next (finish (replied 0x06 tag .storeFail []
          { s.taken with service := { s.taken.service with deferred := none } }))))
    ∧ ∀ (x : StoreRun) (r : Nat), s.store.op = .storing x → x.timer = some r →
        let w := s.openedAt r
        let after (c : Instr) (post : State → Prop) : Prop := ∃ u, exec c s = .next (sleepIfDue (finish u)) ∧ post u
        let next : StoreRun := { x with page := if x.page + 1 ≤ (x.image.length + 63) / 64 then x.page + 1 else 0
                                        timer := some 4000 }
        (x.page ≠ 0 → after (.storePageStep true) fun u =>
          (∀ i : Nat, Memory.read u.nvm.cells i =
              if 64 * x.page ≤ i ∧ i < 64 * x.page + 64 then (x.image.drop (64 * (x.page - 1))).getD (i - 64 * x.page) 0
              else Memory.read s.nvm.cells i)
          ∧ u = { w with
              nvm := { s.nvm with cells := u.nvm.cells }
              store := { s.store with op := .storing next } })
        ∧ (s.service.deferred = none → x.page = 0 → ∀ c : Instr, c = .storePageStep true ∨ c = .storeCompletion →
            after c fun u => u = reportEnded .storeInvalid 0 { w with
              nvm := { s.nvm with header := .written x.header }, store := { imageValid := true, op := .idle } })
        ∧ (s.service.deferred = none → after (.storePageStep false) fun u =>
            u.store = { s.store with op := .idle } ∧ (x.page ≠ 0 → u.nvm.header = s.nvm.header)
            ∧ (x.page = 0 → ∃ l, u.nvm.header = .torn l)
            ∧ (∀ i : Nat, x.page = 0 ∨ i < 64 * x.page ∨ 64 * x.page + 64 ≤ i →
                Memory.read u.nvm.cells i = Memory.read s.nvm.cells i)
            ∧ u = { w with nvm := u.nvm, store := u.store, choices := u.choices })
        ∧ (∀ code tag, s.service.deferred = some (code, tag) → s.service.replies = [] → s.ports.c.on = true →
            s.ports.c.full = false →
            (x.page = 0 → after .storeCompletion fun u => ∃ v, u = replied code tag .ok [] v
              ∧ v = { reportEnded .storeInvalid 0 { w with
                        nvm := { s.nvm with header := .written x.header }, store := { imageValid := true, op := .idle } } with
                      service := { w.service with deferred := none } })
            ∧ (x.page = 0 → after (.storePageStep true) fun u => ∃ v, u = replied code tag .ok [] v
              ∧ v = { reportEnded .storeInvalid 0 { w with
                        nvm := { s.nvm with header := .written x.header }, store := { imageValid := true, op := .idle } } with
                      service := { w.service with deferred := none } })
            ∧ after (.storePageStep false) fun u => ∃ v, u = replied code tag .storeFail [] v
                ∧ v.store = { s.store with op := .idle } ∧ v.tables = s.tables
                ∧ (x.page ≠ 0 → v.nvm.header = s.nvm.header) ∧ (x.page = 0 → ∃ l, v.nvm.header = .torn l)
                ∧ (∀ i : Nat, x.page = 0 ∨ i < 64 * x.page ∨ 64 * x.page + 64 ≤ i →
                    Memory.read v.nvm.cells i = Memory.read s.nvm.cells i)
                ∧ v = { w with nvm := v.nvm, store := v.store, choices := v.choices
                               service := { w.service with deferred := none } })

/-- A RECALL (R182, R183): a blank header or one out of range completes it at once with STORE_FAIL and image valid
clear, and an image without record bytes is judged at once (log entry 19); otherwise the pages are read one by one at
1 ms and summed, and at the end of the last the image is judged: a valid one replaces the working tables, restarts
slots, removes the senders and leaves selector and volume, an invalid one leaves the tables and clears image valid;
the deferred reply goes out with it, OK or STORE_FAIL (R174), and a RECALL in flight without one makes none. SLEEP
follows when it is due, after the whole of the event (log entry 48). RECALL_COMPLETION alone is log entry 25, before
the last page log entry 24, a request command acts as its frame (log entry 26), and an expiry command brings time
forward to the expiry (log entry 1). -/
def Obligations.RecallRuns : Prop :=
  ∀ s : State, s.power = .running →
    (∀ tag, ServiceReady s → s.service.session = true →
      (s.nvm.header.length? = none →
        exec (.recall tag) s = .next (finish (replied 0x07 tag .storeFail []
          { s.taken with service := { s.taken.service with deferred := none }
                         store := { s.store with imageValid := false } })))
      ∧ (s.nvm.header.length? = some 0 →
        (s.nvm.load 0 = none → exec (.recall tag) s = .next (finish (replied 0x07 tag .storeFail []
          { s.taken with service := { s.taken.service with deferred := none }
                         store := { s.store with imageValid := false } })))
        ∧ (∀ t, s.nvm.load 0 = some t → ∃ v, exec (.recall tag) s = .next (finish (replied 0x07 tag .ok [] v))
            ∧ v.tables = t ∧ v.store = s.store ∧ v.nvm = s.nvm ∧ v.slots = t.slots.map SlotRun.restarted
            ∧ v.senders = Vector.replicate 24 none ∧ v.selector = s.selector))
      ∧ (∀ n, s.nvm.header.length? = some n → n ≠ 0 →
        let first : RecallRun := { length := n, page := 1, sum := 0, timer := some 1000 }
        exec (.recall tag) s = .next (finish { s.taken with
          service := { s.taken.service with deferred := some (0x07, tag) }
          store := { s.store with op := .recalling first } })))
    ∧ ∀ (x : RecallRun) (r : Nat), s.store.op = .recalling x → x.timer = some r →
        let w := s.openedAt r
        let pages := (x.length + 63) / 64
        let sum := checkSum x.sum (Memory.readAll s.nvm.cells (64 * x.page) (min 64 (x.length - 64 * (x.page - 1))))
        let after (c : Instr) (post : State → Prop) : Prop := ∃ u, exec c s = .next (sleepIfDue (finish u)) ∧ post u
        let replaced (t : Tables) (u : State) : Prop :=
            u.tables = t ∧ u.store = { s.store with op := .idle } ∧ u.nvm = s.nvm
            ∧ u.slots = t.slots.map SlotRun.restarted ∧ u.senders = Vector.replicate 24 none
            ∧ u.selector = s.selector ∧ u.spray.volume = s.spray.volume
            ∧ (∀ ch : Fin 6,
                let c := w.channels[ch]
                let y := u.channels[ch]
                y.enable = t.channels[ch].startEnabled ∧ y.pending = false ∧ y.state = c.state
                ∧ (c.state ≠ .idle → y.stop = true ∧ y.out = c.out)
                ∧ y.remaining = t.channels[ch].reload ∧ y.position = t.channels[ch].runStart)
            ∧ (∀ a, (t.arms.arms.get a).fitted = (s.tables.arms.arms.get a).fitted →
                (s.arms.get a).state ≠ .faulted → (u.arms.get a).state = (s.arms.get a).state)
        (x.page < pages →
          (after .recallPageRead fun u =>
            let next : RecallRun := { length := x.length, page := x.page + 1, sum := sum, timer := some 1000 }
            u = { w with store := { s.store with op := .recalling next } })
          ∧ exec .recallCompletion s = .next s)
        ∧ (pages ≤ x.page → s.service.deferred = none → ∀ c : Instr, c = .recallPageRead ∨ c = .recallCompletion →
            (s.nvm.load sum = none → after c fun u => u = { w with store := { imageValid := false, op := .idle } })
            ∧ (∀ t, s.nvm.load sum = some t → after c (replaced t)))
        ∧ (∀ code tag, s.service.deferred = some (code, tag) → s.service.replies = [] → s.ports.c.on = true →
            s.ports.c.full = false → pages ≤ x.page → ∀ c : Instr, c = .recallPageRead ∨ c = .recallCompletion →
            (s.nvm.load sum = none → after c fun u => u = replied code tag .storeFail []
              { w with service := { w.service with deferred := none }, store := { imageValid := false, op := .idle } })
            ∧ (∀ t, s.nvm.load sum = some t → after c fun u => ∃ v, u = replied code tag .ok [] v ∧ replaced t v
                ∧ v.service = { w.service with deferred := none } ∧ v.ports = w.ports))

/-- An accepted record of these items is read back as it was staged: the bytes a field check accepts are the bytes
that READ_ITEM and the stored image give (R171, R173; 12 R180). -/
def Obligations.RecordBytesReadBack : Prop :=
  ∀ b : List Byte,
    (∀ c, SlotCfg.decode b = some c → b.length = 23 → c.encode = b)
    ∧ (∀ c, decodeRoles b = some c → b.length = 18 → encodeRoles c = b)
    ∧ (∀ c, Profile.decode b = some c → b.length = 31 → c.encode = b)
    ∧ (∀ c, Curve.decode b = some c → b.length = 20 → c.encode = b)
    ∧ (∀ c, ArmConfig.decode b = some c → b.length = 59 → c.encode = b)
    ∧ (∀ c, ChannelCfg.decode b = some c → b.length = 12 → c.encode = b)
    ∧ (∀ c, decodeWindows b = some c → b.length = 36 → encodeWindows c = b)
    ∧ (∀ c, DriveConfig.decode b = some c → b.length = 18 → c.encode = b)
    ∧ (∀ c, SprayConfig.decode b = some c → b.length = 8 → c.encode = b)
    ∧ (∀ c, PortConfig.decode b = some c → b.length = 12 → c.encode = b)
end

