-- ==== Sys2Proof/Laws/Frames.lean ====
section
/-! SUPPORT. What the shared operations may change: one footprint lemma per operation. `Reports`, `Publishes`, `Sends` and
`Ends` say that a state differs from another in the named fields only; the projections after each give the fields that
stay. -/

namespace Sys2Proof.Machine

/-! ## Footprints -/

/-- Only the fault supervisor and the event's marks differ: what a report does. -/
def Reports (s t : State) : Prop := t = { s with faults := t.faults, ev := t.ev }

/-- Only supervisor, marks, governor, arms, lift circuit and doser differ: what forming the level does. -/
def Publishes (s t : State) : Prop :=
  t = { s with faults := t.faults, ev := t.ev, gov := t.gov, arms := t.arms, lift := t.lift, spray := t.spray }

/-- Only supervisor, marks, channels, ports and the counter of choices differ: what the send channels do. -/
def Sends (s t : State) : Prop :=
  t = { s with faults := t.faults, ev := t.ev, channels := t.channels, ports := t.ports, choices := t.choices }

/-- What the end of an event may change: what `Publishes` and `Sends` may. -/
def Ends (s t : State) : Prop :=
  t = { s with faults := t.faults, ev := t.ev, gov := t.gov, arms := t.arms, lift := t.lift, spray := t.spray,
               channels := t.channels, ports := t.ports, choices := t.choices }

theorem Reports.refl (s : State) : Reports s s := rfl
theorem Publishes.refl (s : State) : Publishes s s := rfl
theorem Sends.refl (s : State) : Sends s s := rfl
theorem Ends.refl (s : State) : Ends s s := rfl

theorem Reports.trans {s t u : State} (h : Reports s t) (k : Reports t u) : Reports s u := by
  unfold Reports at *; rw [k, h]
theorem Publishes.trans {s t u : State} (h : Publishes s t) (k : Publishes t u) : Publishes s u := by
  unfold Publishes at *; rw [k, h]
theorem Sends.trans {s t u : State} (h : Sends s t) (k : Sends t u) : Sends s u := by
  unfold Sends at *; rw [k, h]
theorem Ends.trans {s t u : State} (h : Ends s t) (k : Ends t u) : Ends s u := by
  unfold Ends at *; rw [k, h]

theorem Reports.publishes {s t : State} (h : Reports s t) : Publishes s t := by
  unfold Reports at h; unfold Publishes; rw [h]
theorem Reports.sends {s t : State} (h : Reports s t) : Sends s t := by
  unfold Reports at h; unfold Sends; rw [h]
theorem Publishes.ends {s t : State} (h : Publishes s t) : Ends s t := by
  unfold Publishes at h; unfold Ends; rw [h]
theorem Sends.ends {s t : State} (h : Sends s t) : Ends s t := by
  unfold Sends at h; unfold Ends; rw [h]
theorem Reports.ends {s t : State} (h : Reports s t) : Ends s t := h.sends.ends

/-- A fold of steps that keep a footprint keeps it. -/
theorem foldl_of_step {α : Type} (R : State → State → Prop) (refl : ∀ s, R s s)
    (trans : ∀ s t u, R s t → R t u → R s u) (f : State → α → State) (h : ∀ s a, R s (f s a)) (l : List α) :
    ∀ s, R s (l.foldl f s) := by
  induction l with
  | nil => exact refl
  | cons a l ih => exact fun s => trans _ _ _ (h s a) (ih (f s a))

theorem Reports.foldl {α : Type} {f : State → α → State} (h : ∀ s a, Reports s (f s a)) (l : List α) (s : State) :
    Reports s (l.foldl f s) := foldl_of_step Reports Reports.refl (fun _ _ _ => Reports.trans) f h l s
theorem Publishes.foldl {α : Type} {f : State → α → State} (h : ∀ s a, Publishes s (f s a)) (l : List α) (s : State) :
    Publishes s (l.foldl f s) := foldl_of_step Publishes Publishes.refl (fun _ _ _ => Publishes.trans) f h l s
theorem Sends.foldl {α : Type} {f : State → α → State} (h : ∀ s a, Sends s (f s a)) (l : List α) (s : State) :
    Sends s (l.foldl f s) := foldl_of_step Sends Sends.refl (fun _ _ _ => Sends.trans) f h l s

theorem Ends.foldl {α : Type} {f : State → α → State} (h : ∀ s a, Ends s (f s a)) (l : List α) (s : State) :
    Ends s (l.foldl f s) := foldl_of_step Ends Ends.refl (fun _ _ _ => Ends.trans) f h l s

/-- The fields that the end of an event leaves as they are. -/
theorem Ends.kept {s t : State} (h : Ends s t) :
    t.power = s.power ∧ t.cutoffLine = s.cutoffLine ∧ t.ignLine = s.ignLine ∧ t.timeUs = s.timeUs ∧ t.clock = s.clock
    ∧ t.cause = s.cause ∧ t.shutdown = s.shutdown ∧ t.tables = s.tables ∧ t.nvm = s.nvm ∧ t.store = s.store
    ∧ t.slots = s.slots ∧ t.senders = s.senders ∧ t.written = s.written ∧ t.ackReading = s.ackReading
    ∧ t.capture = s.capture ∧ t.selector = s.selector ∧ t.alloc = s.alloc ∧ t.service = s.service
    ∧ t.pending = s.pending := by
  unfold Ends at h; rw [h]
  exact ⟨rfl, rfl, rfl, rfl, rfl, rfl, rfl, rfl, rfl, rfl, rfl, rfl, rfl, rfl, rfl, rfl, rfl, rfl, rfl⟩

theorem Ends.power {s t : State} (h : Ends s t) : t.power = s.power := by
  unfold Ends at h; rw [h]
theorem Ends.tables {s t : State} (h : Ends s t) : t.tables = s.tables := by
  unfold Ends at h; rw [h]
theorem Ends.nvm {s t : State} (h : Ends s t) : t.nvm = s.nvm := by
  unfold Ends at h; rw [h]
theorem Ends.store {s t : State} (h : Ends s t) : t.store = s.store := by
  unfold Ends at h; rw [h]
theorem Ends.service {s t : State} (h : Ends s t) : t.service = s.service := by
  unfold Ends at h; rw [h]
theorem Ends.shutdown {s t : State} (h : Ends s t) : t.shutdown = s.shutdown := by
  unfold Ends at h; rw [h]
theorem Ends.ignLine {s t : State} (h : Ends s t) : t.ignLine = s.ignLine := by
  unfold Ends at h; rw [h]
theorem Ends.pending {s t : State} (h : Ends s t) : t.pending = s.pending := by
  unfold Ends at h; rw [h]
theorem Sends.gov {s t : State} (h : Sends s t) : t.gov = s.gov := by
  unfold Sends at h; rw [h]
theorem Sends.arms {s t : State} (h : Sends s t) : t.arms = s.arms := by
  unfold Sends at h; rw [h]
theorem Sends.lift {s t : State} (h : Sends s t) : t.lift = s.lift := by
  unfold Sends at h; rw [h]
theorem Sends.spray {s t : State} (h : Sends s t) : t.spray = s.spray := by
  unfold Sends at h; rw [h]
theorem Publishes.ports {s t : State} (h : Publishes s t) : t.ports = s.ports := by
  unfold Publishes at h; rw [h]
theorem Publishes.channels {s t : State} (h : Publishes s t) : t.channels = s.channels := by
  unfold Publishes at h; rw [h]
theorem Publishes.choices {s t : State} (h : Publishes s t) : t.choices = s.choices := by
  unfold Publishes at h; rw [h]
theorem Reports.gov {s t : State} (h : Reports s t) : t.gov = s.gov := by
  unfold Reports at h; rw [h]
theorem Reports.arms {s t : State} (h : Reports s t) : t.arms = s.arms := by
  unfold Reports at h; rw [h]

/-! ## Reports (10) -/

theorem markFaultChange_reports (s : State) : Reports s (markFaultChange s) := rfl
theorem markFaultChangeIf_reports (b : Bool) (s : State) : Reports s (markFaultChangeIf b s) := by
  cases b <;> rfl
theorem placeRecord_reports (i k n sev) (s : State) : Reports s (placeRecord i k n sev s) := rfl
theorem mergeReport_reports (k n sev c) (s : State) : Reports s (mergeReport k n sev c s) := by
  unfold mergeReport; split
  · rfl
  · exact Reports.trans (by rfl) (markFaultChangeIf_reports _ _)
theorem enterRecord_reports (k n sev) (s : State) : Reports s (enterRecord k n sev s) := by
  unfold enterRecord; split
  · rfl
  · split
    · rfl
    · exact mergeReport_reports _ _ _ _ _
theorem reportBegun_reports (k n sev) (s : State) : Reports s (reportBegun k n sev s) := by
  unfold reportBegun; dsimp only; split
  · split
    · exact Reports.trans (by rfl) (markFaultChangeIf_reports _ _)
    · rfl
  · split
    · exact Reports.trans (by rfl) (mergeReport_reports _ _ _ _ _)
    · exact Reports.trans (by rfl) (enterRecord_reports _ _ _ _)
theorem reportEnded_reports (k n) (s : State) : Reports s (reportEnded k n s) := by
  unfold reportEnded; dsimp only; split
  · rfl
  · split <;> rfl
theorem reportEndedIf_reports (b k n) (s : State) : Reports s (reportEndedIf b k n s) := by
  cases b
  · exact Reports.refl s
  · exact reportEnded_reports k n s
theorem reportOnce_reports (k n sev) (s : State) : Reports s (reportOnce k n sev s) :=
  (reportBegun_reports k n sev s).trans (reportEnded_reports k n _)

/-! ## Forming the level (10 R161) -/

theorem enterHeld_publishes (s : State) : Publishes s (enterHeld s) :=
  Publishes.trans (by rfl) (reportEndedIf_reports _ _ _ _).publishes
theorem putArm_publishes (a r) (s : State) : Publishes s (putArm a r s) := rfl
theorem leaveQueue_publishes (a) (s : State) : Publishes s (leaveQueue a s) :=
  Publishes.trans (by rfl) (reportEnded_reports _ _ _).publishes
theorem join_publishes (a up o) (s : State) : Publishes s (join a up o s) := rfl
theorem freezeArm_publishes (l) (s : State) (a) : Publishes s (freezeArm l s a) := by
  unfold freezeArm; dsimp only; split
  · exact Publishes.trans (putArm_publishes _ _ _) (reportEnded_reports _ _ _).publishes
  · exact Publishes.refl s
theorem freezeCircuit_publishes (s : State) : Publishes s (freezeCircuit s) :=
  Publishes.trans (Publishes.foldl (freezeArm_publishes _) _ _) (by rfl)
theorem rejoinArm_publishes (s : State) (a) : Publishes s (rejoinArm s a) := by
  unfold rejoinArm; dsimp only; split
  · split
    · exact join_publishes _ _ _ _
    · exact join_publishes _ _ _ _
    · exact Publishes.refl s
  · exact Publishes.refl s
theorem rejoinFrozen_publishes (s : State) : Publishes s (rejoinFrozen s) := Publishes.foldl rejoinArm_publishes _ _
theorem closeBanks_publishes (c) (s : State) : Publishes s (closeBanks c s) := by
  unfold closeBanks; dsimp only; split <;> rfl
theorem banksFollowArms_publishes (s : State) : Publishes s (banksFollowArms s) := closeBanks_publishes _ _
theorem publish_publishes (l) (s : State) : Publishes s (publish l s) := by
  unfold publish; dsimp only
  have h1 : Publishes s (markFaultChange { s with faults.level := l }) := by rfl
  have h2 : Publishes s
      (if l = 3 then freezeCircuit (enterHeld { markFaultChange { s with faults.level := l } with gov.lock := true })
       else rejoinFrozen (markFaultChange { s with faults.level := l })) := by
    split
    · exact Publishes.trans (Publishes.trans (by rfl) (enterHeld_publishes _)) (freezeCircuit_publishes _)
    · exact h1.trans (rejoinFrozen_publishes _)
  split
  · exact h2.trans (closeBanks_publishes _ _)
  · exact h2
theorem formOnce_publishes (s : State) : Publishes s (formOnce s) := by
  unfold formOnce; split
  · exact Publishes.refl s
  · exact publish_publishes _ _
theorem formLevel_publishes (s : State) : Publishes s (formLevel s) :=
  (formOnce_publishes s).trans (formOnce_publishes _)

/-! ## Sends (09) -/

theorem onChan_sends (ch f) (s : State) : Sends s (onChan ch f s) := rfl
theorem onPort_sends (s : State) (q f) : Sends s (s.onPort q f) := rfl
theorem announceTop_sends (t) (s : State) : Sends s (announceTop t s) := by
  unfold announceTop; split
  · split <;> rfl
  · rfl
theorem placeChannelFrame_sends (ch n q) (s : State) : Sends s (placeChannelFrame ch n q s) :=
  Sends.trans (by rfl) (announceTop_sends _ _)
theorem stepPosition_sends (ch) (s : State) : Sends s (stepPosition ch s) := rfl
theorem refuseWindow_sends (ch) (s : State) : Sends s (refuseWindow ch s) :=
  Sends.trans (onChan_sends _ _ _) (reportOnce_reports _ _ _ _).sends
theorem stall_sends (ch n q) (s : State) : Sends s (stall ch n q s) := rfl
theorem offerOne_sends (ch) (s : State) : Sends s (offerOne ch s).2 := by
  unfold offerOne; dsimp only; split
  · split
    · rfl
    · split
      · exact stall_sends _ _ _ _
      · exact placeChannelFrame_sends _ _ _ _
  · exact refuseWindow_sends _ _
theorem offerRun_sends (k ch) (s : State) : Sends s (offerRun k ch s) := by
  induction k generalizing s with
  | zero => rfl
  | succ k ih =>
    unfold offerRun
    have h := offerOne_sends ch s
    split
    · next x heq =>
      rw [heq] at h
      have h2 : Sends s (stepPosition ch x) := Sends.trans h (stepPosition_sends _ _)
      dsimp only
      split
      · exact h2.trans (ih _)
      · exact h2
    · next x heq => rw [heq] at h; exact h
theorem continueSend_sends (ch) (s : State) : Sends s (continueSend ch s) := by
  unfold continueSend; dsimp only; split
  · exact (stepPosition_sends _ _).trans (offerRun_sends _ _ _)
  · exact stepPosition_sends _ _
theorem beginSend_sends (ch) (s : State) : Sends s (beginSend ch s) := rfl
theorem triggerWith_sends {start : Fin 6 → State → State} (h : ∀ ch s, Sends s (start ch s)) (ch) (s : State) :
    Sends s (triggerWith start ch s) := by
  unfold triggerWith; split
  · dsimp only; split
    · exact (onChan_sends _ _ _).trans (h _ _)
    · exact onChan_sends _ _ _
  · rfl
theorem countSend_sends {start : Fin 6 → State → State} (h : ∀ ch s, Sends s (start ch s)) (ch) (s : State) :
    Sends s (countSend start ch s) := by
  unfold countSend; dsimp only; split
  · rfl
  · split
    · have h1 : ∀ u, Sends s u → Sends s (if (s.chanCfg ch).notify then markFaultChange u else u) := by
        intro u hu; split
        · exact hu.trans (by rfl)
        · exact hu
      apply h1
      split
      · rfl
      · exact Sends.trans (by rfl) (triggerWith_sends h _ _)
    · rfl
theorem completeWith_sends {start : Fin 6 → State → State} (h : ∀ ch s, Sends s (start ch s)) (ch) (s : State) :
    Sends s (completeWith start ch s) := by
  have last : ∀ u, Sends s u →
      Sends s (if (u.chan ch).enable && (u.chan ch).pending && (u.chan ch).state == .idle then start ch u else u) := by
    intro u hu; split
    · exact hu.trans (h _ _)
    · exact hu
  unfold completeWith
  apply last
  split
  · exact onChan_sends _ _ _
  · exact (onChan_sends _ _ _).trans (countSend_sends h _ _)
theorem startSend_sends (n ch) (s : State) : Sends s (startSend n ch s) := by
  induction n generalizing ch s with
  | zero => rfl
  | succ n ih =>
    unfold startSend; dsimp only
    have h : Sends s (offerRun (s.chanCfg ch).runLen ch (beginSend ch s)) :=
      (beginSend_sends _ _).trans (offerRun_sends _ _ _)
    split
    · exact h.trans (completeWith_sends ih _ _)
    · exact h
theorem giveTrigger_sends (ch) (s : State) : Sends s (giveTrigger ch s) := triggerWith_sends (startSend_sends _) _ _
theorem completeIfDone_sends (ch) (s : State) : Sends s (completeIfDone ch s) := by
  unfold completeIfDone; split
  · exact completeWith_sends (startSend_sends _) _ _
  · rfl
theorem giveTriggers_ends (s : State) : Ends s (giveTriggers s) :=
  Ends.trans (by rfl)
    (Ends.foldl (fun s ch => (giveTrigger_sends ch s).ends.trans (formLevel_publishes _).ends) _ _)

/-! ## The end of an event -/

/-- Forming the level and giving the triggers keep the footprint of an event's end. -/
theorem formAndGive_ends (s : State) : Ends s (giveTriggers (formLevel s)) :=
  (formLevel_publishes s).ends.trans (giveTriggers_ends _)

/-- Completing the sends of an event keeps that footprint. -/
theorem completeAll_ends (s : State) : Ends s (completeAll s) :=
  (formLevel_publishes s).ends.trans
    (Ends.trans (by rfl)
      (Ends.foldl (fun s ch => (completeIfDone_sends ch s).ends.trans (formLevel_publishes _).ends) _ _))

theorem clearMarks_ends (s : State) : Ends s { s with ev := .none } := rfl

/-- The end of an event changes only what forming the level and the send channels change. -/
theorem finish_ends (s : State) : Ends s (finish s) := by
  unfold finish; split
  · exact (formAndGive_ends s).trans <| (formAndGive_ends _).trans <| (formAndGive_ends _).trans <|
      (formLevel_publishes _).ends.trans (clearMarks_ends _)
  · exact clearMarks_ends s

end Sys2Proof.Machine
end

