-- ==== Sys2Proof/Laws/Kept.lean ====
section
/-! SUPPORT. What every operation keeps: the nonvolatile area (the store's own writes apart) and the rules of the transmit
queues. `Keeps s t` says so of a state and a later one; one lemma per operation. -/

namespace Sys2Proof.Machine

/-- A port unit within its rules but for the record its link may lack, as it is inside a FRAME_SENT event. -/
def PortUnit.loose (p : PortUnit) : Prop :=
  p.queue.length ≤ Config.queuePlaces ∧ (p.on = false → p.queue = [])
  ∧ ∀ n, p.offered = some n → ∃ r ∈ p.queue, r.order = n

/-- The nonvolatile area stands and each port stays within its rules. -/
def Keeps (s t : State) : Prop :=
  t.nvm = s.nvm ∧ ∀ q, ((s.ports.get q).ok → (t.ports.get q).ok) ∧ ((s.ports.get q).loose → (t.ports.get q).loose)

theorem Keeps.refl (s : State) : Keeps s s := ⟨rfl, fun _ => ⟨id, id⟩⟩
theorem Keeps.trans {s t u : State} (h : Keeps s t) (k : Keeps t u) : Keeps s u :=
  ⟨k.1.trans h.1, fun q => ⟨(k.2 q).1 ∘ (h.2 q).1, (k.2 q).2 ∘ (h.2 q).2⟩⟩
theorem Keeps.queues {s t : State} (h : Keeps s t) (k : QueuesOk s) : QueuesOk t := ⟨(h.2 .c).1 k.1, (h.2 .b).1 k.2⟩
/-- The same, the last operation named first. -/
theorem Keeps.after {s t u : State} (k : Keeps t u) (h : Keeps s t) : Keeps s u := h.trans k
/-- A state with the same nonvolatile area and the same ports. -/
theorem Keeps.of_eq {s t : State} (n : t.nvm = s.nvm) (p : t.ports = s.ports) : Keeps s t := by
  refine ⟨n, fun q => ?_⟩
  rw [p]; exact ⟨id, id⟩
theorem Publishes.keeps {s t : State} (h : Publishes s t) : Keeps s t :=
  Keeps.of_eq h.ends.nvm h.ports
theorem Reports.keeps {s t : State} (h : Reports s t) : Keeps s t := h.publishes.keeps
theorem Keeps.foldl {α : Type} {f : State → α → State} (h : ∀ s a, Keeps s (f s a)) (l : List α) (s : State) :
    Keeps s (l.foldl f s) := foldl_of_step Keeps Keeps.refl (fun _ _ _ => Keeps.trans) f h l s
theorem Keeps.ite {s t u : State} (c : Prop) [Decidable c] (h : Keeps s t) (k : Keeps s u) :
    Keeps s (if c then t else u) := by split <;> assumption

/-! ## The queues -/

theorem highest_isSome : ∀ (l : List TxRec), l ≠ [] → ∃ r, highest l = some r ∧ r ∈ l := by
  intro l
  induction l with
  | nil => intro h; exact absurd rfl h
  | cons r rs ih =>
    intro _
    unfold highest
    cases h : highest rs with
    | none => exact ⟨r, rfl, List.mem_cons_self⟩
    | some q =>
      have hq : q ∈ rs := by
        cases rs with
        | nil => simp [highest] at h
        | cons x xs =>
          obtain ⟨p, hp, hm⟩ := ih (by simp)
          rw [hp] at h; cases h; exact hm
      dsimp only
      split
      · exact ⟨q, rfl, List.mem_cons_of_mem _ hq⟩
      · exact ⟨r, rfl, List.mem_cons_self⟩

/-- Giving the link a record where it holds none leaves a port within its rules. -/
theorem PortUnit.offerLink_ok (p : PortUnit) (l : p.queue.length ≤ Config.queuePlaces) (o : p.on = false → p.queue = [])
    (h : ∀ n, p.offered = some n → ∃ r ∈ p.queue, r.order = n) : p.offerLink.ok := by
  unfold PortUnit.offerLink
  cases e : p.offered with
  | some n =>
    obtain ⟨r, hm, hr⟩ := h n e
    show p.ok
    refine ⟨l, o, fun q => ?_, fun _ => ⟨r, hm, by rw [e, hr]⟩⟩
    rw [q] at hm; cases hm
  | none =>
    show PortUnit.ok { p with offered := (highest p.queue).map (·.order) }
    refine ⟨l, o, fun q => ?_, fun q => ?_⟩
    · show (highest p.queue).map (·.order) = none
      rw [q]; rfl
    · obtain ⟨r, hr, hm⟩ := highest_isSome p.queue q
      exact ⟨r, hm, congrArg (Option.map (·.order)) hr⟩

/-- What a port unit within its rules holds offered is one of its records. -/
theorem PortUnit.ok.offered_mem {p : PortUnit} (h : p.ok) : ∀ n, p.offered = some n → ∃ r ∈ p.queue, r.order = n := by
  intro n hn
  by_cases q : p.queue = []
  · rw [h.2.2.1 q] at hn; cases hn
  · obtain ⟨r, hm, hr⟩ := h.2.2.2 q
    rw [hr] at hn; exact ⟨r, hm, by cases hn; rfl⟩

theorem PortUnit.ok.loose {p : PortUnit} (h : p.ok) : p.loose := ⟨h.1, h.2.1, h.offered_mem⟩

/-- Giving the link a record mends a port. -/
theorem PortUnit.loose.mended {p : PortUnit} (h : p.loose) : p.offerLink.ok := PortUnit.offerLink_ok p h.1 h.2.1 h.2.2

/-- A record that finds an ON port with a place free leaves the port within its rules, whatever its link held before. -/
theorem PortUnit.enter_ok (p : PortUnit) (f : Frame) (o : Origin) (on : p.on = true) (free : p.full = false)
    (h : ∀ n, p.offered = some n → ∃ r ∈ p.queue, r.order = n) : (p.enter f o).ok := by
  unfold PortUnit.full at free
  simp only [decide_eq_false_iff_not, not_le] at free
  refine PortUnit.offerLink_ok _ ?_ ?_ ?_
  · show (p.queue ++ [_]).length ≤ _
    simp only [List.length_append, List.length_singleton]; omega
  · intro off; rw [show p.on = false from off] at on; cases on
  · intro n hn
    obtain ⟨r, hm, hr⟩ := h n hn
    exact ⟨r, List.mem_append_left _ hm, hr⟩

/-- A port with nothing queued and nothing offered is within its rules. -/
theorem PortUnit.empty_ok (p : PortUnit) (q : p.queue = []) (o : p.offered = none) : p.ok :=
  ⟨by rw [q]; exact Nat.zero_le _, fun _ => q, fun _ => o, fun h => absurd q h⟩

theorem QueuesOk.get {s : State} (h : QueuesOk s) (q : Port) : (s.ports.get q).ok := by cases q; exacts [h.1, h.2]

/-- Replacing one port by one within its rules. -/
theorem QueuesOk.onPort {s : State} (h : QueuesOk s) (q : Port) (f : PortUnit → PortUnit) (k : (f (s.ports.get q)).ok) :
    QueuesOk (s.onPort q f) := by cases q; exacts [⟨k, h.2⟩, ⟨h.1, k⟩]

/-- Replacing one port by one that keeps its rules. -/
theorem Keeps.onPort (q : Port) (f : PortUnit → PortUnit) (s : State)
    (h : ((s.ports.get q).ok → (f (s.ports.get q)).ok) ∧ ((s.ports.get q).loose → (f (s.ports.get q)).loose)) :
    Keeps s (s.onPort q f) :=
  ⟨rfl, fun r => by cases q <;> cases r <;> first | exact h | exact ⟨id, id⟩⟩

/-- Only waiting holders of a port differ. -/
theorem onPort_holders_keeps (q : Port) (f : List Holder → List Holder) (s : State) :
    Keeps s (s.onPort q fun p => { p with holders := f p.holders }) := Keeps.onPort q _ s ⟨id, id⟩

/-- A record enters an ON port with a place free. -/
theorem onPort_enter_keeps (q : Port) (f : Frame) (o : Origin) (s : State) (on : (s.ports.get q).on = true)
    (free : (s.ports.get q).full = false) : Keeps s (s.onPort q fun p => p.enter f o) :=
  Keeps.onPort q _ s
    ⟨fun h => PortUnit.enter_ok _ f o on free h.offered_mem, fun h => (PortUnit.enter_ok _ f o on free h.2.2).loose⟩

/-! ## The send channels -/

theorem onChan_keeps (ch f) (s : State) : Keeps s (onChan ch f s) := Keeps.of_eq rfl rfl
theorem announceTop_keeps (t) (s : State) : Keeps s (announceTop t s) := by
  unfold announceTop; split
  · split <;> exact Keeps.of_eq rfl rfl
  · exact Keeps.refl s
theorem placeChannelFrame_keeps (ch n q) (s : State) (on : (s.ports.get q).on = true)
    (free : (s.ports.get q).full = false) : Keeps s (placeChannelFrame ch n q s) :=
  (onPort_enter_keeps q _ _ s on free).trans ((onChan_keeps _ _ _).trans (announceTop_keeps _ _))
theorem stepPosition_keeps (ch) (s : State) : Keeps s (stepPosition ch s) := Keeps.of_eq rfl rfl
theorem refuseWindow_keeps (ch) (s : State) : Keeps s (refuseWindow ch s) :=
  (onChan_keeps ch _ s).trans (reportOnce_reports _ _ _ _).keeps
theorem stall_keeps (ch n q) (s : State) : Keeps s (stall ch n q s) :=
  (onPort_holders_keeps q (· ++ [.channel ch]) s).trans (onChan_keeps _ _ _)
theorem offerOne_keeps (ch) (s : State) : Keeps s (offerOne ch s).2 := by
  unfold offerOne; dsimp only; split
  · split
    · exact Keeps.refl s
    · next on =>
      split
      · exact stall_keeps _ _ _ _
      · next free => exact placeChannelFrame_keeps _ _ _ _ (by simpa using on) (by simpa using free)
  · exact refuseWindow_keeps _ _
theorem offerRun_keeps (k ch) (s : State) : Keeps s (offerRun k ch s) := by
  induction k generalizing s with
  | zero => exact Keeps.refl s
  | succ k ih =>
    unfold offerRun
    have h := offerOne_keeps ch s
    split
    · next x heq =>
      rw [heq] at h
      have h2 : Keeps s (stepPosition ch x) := Keeps.trans h (stepPosition_keeps _ _)
      dsimp only
      split
      · exact h2.trans (ih _)
      · exact h2
    · next x heq => rw [heq] at h; exact h
theorem continueSend_keeps (ch) (s : State) : Keeps s (continueSend ch s) := by
  unfold continueSend; dsimp only; split
  · exact (stepPosition_keeps _ _).trans (offerRun_keeps _ _ _)
  · exact stepPosition_keeps _ _
theorem triggerWith_keeps {start : Fin 6 → State → State} (h : ∀ ch s, Keeps s (start ch s)) (ch) (s : State) :
    Keeps s (triggerWith start ch s) := by
  unfold triggerWith; split
  · dsimp only; split
    · exact (onChan_keeps _ _ _).trans (h _ _)
    · exact onChan_keeps _ _ _
  · exact Keeps.refl s
theorem countSend_keeps {start : Fin 6 → State → State} (h : ∀ ch s, Keeps s (start ch s)) (ch) (s : State) :
    Keeps s (countSend start ch s) := by
  have mark : ∀ u, Keeps s u → Keeps s (if (s.chanCfg ch).notify then markFaultChange u else u) := by
    intro u hu; split
    · exact hu.trans (Keeps.of_eq rfl rfl)
    · exact hu
  unfold countSend; dsimp only; split
  · exact Keeps.refl s
  · split
    · apply mark
      split
      · exact (onChan_keeps _ _ _).trans (onChan_keeps _ _ _)
      · exact ((onChan_keeps _ _ _).trans (onChan_keeps _ _ _)).trans (triggerWith_keeps h _ _)
    · exact onChan_keeps _ _ _
theorem completeWith_keeps {start : Fin 6 → State → State} (h : ∀ ch s, Keeps s (start ch s)) (ch) (s : State) :
    Keeps s (completeWith start ch s) := by
  have last : ∀ u, Keeps s u →
      Keeps s (if (u.chan ch).enable && (u.chan ch).pending && (u.chan ch).state == .idle then start ch u else u) := by
    intro u hu; split
    · exact hu.trans (h _ _)
    · exact hu
  unfold completeWith
  apply last
  split
  · exact onChan_keeps _ _ _
  · exact (onChan_keeps _ _ _).trans (countSend_keeps h _ _)
theorem startSend_keeps (n ch) (s : State) : Keeps s (startSend n ch s) := by
  induction n generalizing ch s with
  | zero => exact Keeps.refl s
  | succ n ih =>
    unfold startSend; dsimp only
    have h : Keeps s (offerRun (s.chanCfg ch).runLen ch (beginSend ch s)) :=
      Keeps.trans (Keeps.of_eq rfl rfl) (offerRun_keeps _ _ _)
    split
    · exact h.trans (completeWith_keeps ih _ _)
    · exact h
theorem giveTrigger_keeps (ch) (s : State) : Keeps s (giveTrigger ch s) := triggerWith_keeps (startSend_keeps _) _ _
theorem completeIfDone_keeps (ch) (s : State) : Keeps s (completeIfDone ch s) := by
  unfold completeIfDone; split
  · exact completeWith_keeps (startSend_keeps _) _ _
  · exact Keeps.refl s
theorem completeAll_keeps (s : State) : Keeps s (completeAll s) :=
  (formLevel_publishes s).keeps.trans
    (Keeps.trans (Keeps.of_eq rfl rfl)
      (Keeps.foldl (fun s ch => (completeIfDone_keeps ch s).trans (formLevel_publishes _).keeps) _ _))
theorem giveTriggers_keeps (s : State) : Keeps s (giveTriggers s) :=
  Keeps.trans (Keeps.of_eq rfl rfl)
    (Keeps.foldl (fun s ch => (giveTrigger_keeps ch s).trans (formLevel_publishes _).keeps) _ _)

/-! ## Events -/

theorem formAndGive_keeps (s : State) : Keeps s (giveTriggers (formLevel s)) :=
  (formLevel_publishes s).keeps.trans (giveTriggers_keeps _)
theorem clearMarks_keeps (s : State) : Keeps s { s with ev := .none } := Keeps.of_eq rfl rfl
theorem finish_keeps (s : State) : Keeps s (finish s) := by
  unfold finish; split
  · exact (formAndGive_keeps s).trans <| (formAndGive_keeps _).trans <| (formAndGive_keeps _).trans <|
      (formLevel_publishes _).keeps.trans (clearMarks_keeps _)
  · exact clearMarks_keeps s
theorem event_keeps {body : State → State} (h : ∀ s, Keeps s (body s)) (s : State) : Keeps s (event body s) :=
  (clearMarks_keeps s).trans ((h _).trans (finish_keeps _))
theorem advance_keeps (n : Nat) (s : State) : Keeps s (advance n s) := by
  cases n <;> exact Keeps.of_eq rfl rfl

/-- An answer whose next state keeps what `Keeps` names. -/
def KeepsAnswer (s : State) (a : Answer) : Prop := ∀ t, a = .next t → Keeps s t

theorem KeepsAnswer.next {s t : State} (h : Keeps s t) : KeepsAnswer s (.next t) := by
  intro u e; cases e; exact h
theorem happens_keeps {body : State → State} (h : ∀ s, Keeps s (body s)) (c) (s : State) :
    KeepsAnswer s (happens c body s) := by
  unfold happens; split
  · exact .next (event_keeps h s)
  · exact .next (.refl s)
theorem expires_keeps {body : State → State} (h : ∀ s, Keeps s (body s)) (t) (s : State) :
    KeepsAnswer s (expires t body s) := by
  unfold expires; split
  · split
    · exact .next ((advance_keeps _ s).trans (event_keeps h _))
    · exact .next (.refl s)
  · exact .next (.refl s)

end Sys2Proof.Machine
end

