-- ==== Sys2Proof/Laws/Bodies.lean ====
section
/-! SUPPORT. `Keeps` for the events' bodies: none of them touches the nonvolatile area but the table store's, and all of
them leave the transmit queues within their rules. -/

namespace Sys2Proof.Machine

/-! ## Reports of the supervisor -/

theorem reportBegun_keeps (k n sev) (s : State) : Keeps s (reportBegun k n sev s) := (reportBegun_reports k n sev s).keeps
theorem reportEnded_keeps (k n) (s : State) : Keeps s (reportEnded k n s) := (reportEnded_reports k n s).keeps
theorem reportEndedIf_keeps (b k n) (s : State) : Keeps s (reportEndedIf b k n s) := (reportEndedIf_reports b k n s).keeps
theorem reportOnce_keeps (k n sev) (s : State) : Keeps s (reportOnce k n sev s) := (reportOnce_reports k n sev s).keeps
theorem enterHeld_keeps (s : State) : Keeps s (enterHeld s) := (enterHeld_publishes s).keeps
theorem formLevel_keeps (s : State) : Keeps s (formLevel s) := (formLevel_publishes s).keeps
theorem closeBanks_keeps (c) (s : State) : Keeps s (closeBanks c s) := (closeBanks_publishes c s).keeps
theorem putArm_keeps (a r) (s : State) : Keeps s (putArm a r s) := (putArm_publishes a r s).keeps
theorem leaveQueue_keeps (a) (s : State) : Keeps s (leaveQueue a s) := (leaveQueue_publishes a s).keeps
theorem join_keeps (a up o) (s : State) : Keeps s (join a up o s) := (join_publishes a up o s).keeps
theorem unfaultArm_keeps (s : State) (a) : Keeps s (unfaultArm s a) := by
  unfold unfaultArm; dsimp only; split
  · exact putArm_keeps _ _ _
  · exact .refl s
theorem acknowledge_keeps (s : State) : Keeps s (acknowledge s) :=
  Keeps.trans (.of_eq rfl rfl) (Keeps.foldl unfaultArm_keeps _ _)
theorem weighAck_keeps (s : State) : Keeps s (weighAck s) := by
  have h : Keeps s { s with ackReading := (s.role .faultAck).value } := .of_eq rfl rfl
  unfold weighAck; dsimp only; split
  · exact h.trans (acknowledge_keeps _)
  · exact h
theorem shutdownFreezeArm_keeps (l) (s : State) (a) : Keeps s (shutdownFreezeArm l s a) := by
  unfold shutdownFreezeArm; dsimp only; split
  · exact (putArm_keeps _ _ _).trans ((reportEnded_keeps _ _ _).trans (reportEnded_keeps _ _ _))
  · exact .refl s
theorem shutdownFreeze_keeps (s : State) : Keeps s (shutdownFreeze s) :=
  (Keeps.foldl (shutdownFreezeArm_keeps _) _ _).trans (.of_eq rfl rfl)
theorem startShutdown_keeps (s : State) : Keeps s (startShutdown s) :=
  (closeBanks_keeps _ _).after ((shutdownFreeze_keeps _).after ((enterHeld_keeps _).after (.of_eq rfl rfl)))

/-! ## Signals (02) -/

theorem onSlot_keeps (n f) (s : State) : Keeps s (onSlot n f s) := .of_eq rfl rfl
theorem onSender_keeps (i f) (s : State) : Keeps s (onSender i f s) := .of_eq rfl rfl
theorem staleBegun_keeps (n) (s : State) : Keeps s (staleBegun n s) := reportBegun_keeps _ _ _ _
theorem tokenSlot_keeps (n x) (s : State) : Keeps s (tokenSlot n x s) := by
  unfold tokenSlot; split
  · exact onSlot_keeps _ _ _
  · exact .refl s
theorem refreshSlot_keeps (n) (s : State) : Keeps s (refreshSlot n s) :=
  (onSlot_keeps n _ s).trans (reportEndedIf_keeps _ _ _ _)
theorem decideStatus_keeps (n) (s : State) : Keeps s (decideStatus n s) := by
  unfold decideStatus; dsimp only; split
  · exact (onSlot_keeps _ _ _).trans (reportEndedIf_keeps _ _ _ _)
  · split
    · exact (onSlot_keeps _ _ _).trans (staleBegun_keeps _ _)
    · exact .refl s
    · exact .refl s
theorem recompute_keeps (n) (s : State) : Keeps s (recompute n s) := by
  have vote : ∀ u, Keeps s u → ∀ l : List SenderRec,
      Keeps s (if u.slots[n].status = .fresh then onSlot n (fun r => { r with last := voteOf s.tables.slots[n].vote l }) u
        else u) := by
    intro u hu l; split
    · exact hu.trans (onSlot_keeps _ _ _)
    · exact hu
  have last : ∀ u, Keeps s u → ∀ l : List SenderRec,
      Keeps s (if s.tables.slots[n].vote = .agree then
          if disagrees s.tables.slots[n].tolerance l then reportBegun .signalDisagree n.val s.tables.slots[n].severity u
          else reportEnded .signalDisagree n.val u
        else u) := by
    intro u hu l; split
    · split
      · exact hu.trans (reportBegun_keeps _ _ _ _)
      · exact hu.trans (reportEnded_keeps _ _ _)
    · exact hu
  unfold recompute; dsimp only; split
  · exact .refl s
  · exact last _ (vote _ (decideStatus_keeps _ _) _) _
theorem removeSenders_keeps (p r) (s : State) : Keeps s (removeSenders p r s) := by
  unfold removeSenders; dsimp only; split
  · exact .refl s
  · exact (Keeps.foldl (fun s n => recompute_keeps n s) _ _).after ((reportEnded_keeps _ _ _).after (.of_eq rfl rfl))
theorem removePlace_keeps (i) (s : State) : Keeps s (removePlace i s) := by
  unfold removePlace; split
  · exact .refl s
  · exact (recompute_keeps _ _).after ((reportEnded_keeps _ _ _).after (.of_eq rfl rfl))
theorem presentSender_keeps (q f e n) (s : State) : Keeps s (presentSender q f e n s).2 := by
  unfold presentSender; split
  · split
    · exact .refl s
    · exact (removePlace_keeps _ _).trans (.of_eq rfl rfl)
  · split
    · exact .of_eq rfl rfl
    · exact reportBegun_keeps _ _ _ _
theorem refreshSender_keeps (i n) (s : State) : Keeps s (refreshSender i n s) := .of_eq rfl rfl
theorem freshnessExpired_keeps (n) (s : State) : Keeps s (freshnessExpired n s) :=
  (onSlot_keeps _ _ _).trans ((staleBegun_keeps _ _).trans (weighAck_keeps _))
theorem senderExpired_keeps (i) (s : State) : Keeps s (senderExpired i s) := by
  unfold senderExpired; dsimp only; split
  · exact onSender_keeps _ _ _
  · exact (onSender_keeps _ _ _).trans ((recompute_keeps _ _).trans (weighAck_keeps _))

/-! ## The frame path (01) -/

theorem applyDirectPick_keeps (d) (s : State) (p) : Keeps s (applyDirectPick d s p) := by
  unfold applyDirectPick; split
  · exact .refl s
  · split
    · split
      · exact .of_eq rfl rfl
      · exact tokenSlot_keeps _ _ _
    · exact .refl s
theorem refreshByPick_keeps (d) (s : State) (p) : Keeps s (refreshByPick d s p) := by
  unfold refreshByPick
  exact .ite _ (refreshSlot_keeps _ _) (.refl s)
theorem applyDirect_keeps (e d) (s : State) : Keeps s (applyDirect e d s) :=
  (Keeps.foldl (applyDirectPick_keeps d) _ _).trans ((Keeps.foldl (refreshByPick_keeps d) _ _).trans (weighAck_keeps _))
theorem applySenderToken_keeps (i d) (s : State) (p) : Keeps s (applySenderToken i d s p) := by
  unfold applySenderToken; split
  · exact onSender_keeps _ _ _
  all_goals exact .refl s
theorem applySender_keeps (i e d) (s : State) : Keeps s (applySender i e d s) := by
  unfold applySender; split
  · exact .refl s
  · split
    · exact .refl s
    · exact (recompute_keeps _ _).after ((refreshSender_keeps _ _ _).after
        ((Keeps.foldl (applySenderToken_keeps i d) _ _).after (.of_eq rfl rfl)))
theorem forward_keeps (q f) (s : State) : Keeps s (forward q f s) := by
  unfold forward; dsimp only; split
  · exact .refl s
  · next on =>
    split
    · exact reportBegun_keeps _ _ _ _
    · next free =>
      exact (reportEnded_keeps _ _ _).after (onPort_enter_keeps q _ _ s (by simpa using on) (by simpa using free))
theorem forwardAction_keeps (e q f) (s : State) : Keeps s (forwardAction e q f s) := by
  unfold forwardAction; split
  · exact forward_keeps _ _ _
  · exact forward_keeps _ _ _
  · exact .refl s
  · exact .refl s
  · split <;> exact forward_keeps _ _ _
theorem carryOut_keeps (i q f) (s : State) : Keeps s (carryOut i q f s) := by
  unfold carryOut; dsimp only; split
  · exact (applyDirect_keeps _ _ _).trans (forwardAction_keeps _ _ _ _)
  · split
    · exact forwardAction_keeps _ _ _ _
    · next v _ =>
      have h := presentSender_keeps q f i v.slot s
      split
      · next x heq => rw [heq] at h; exact h
      · next j x heq =>
        rw [heq] at h
        exact h.trans ((applySender_keeps _ _ _ _).trans ((weighAck_keeps _).trans (forwardAction_keeps _ _ _ _)))
theorem framePath_keeps (q f) (s : State) : Keeps s (framePath q f s) := by
  unfold framePath; split
  · exact carryOut_keeps _ _ _ _
  · split
    · exact forward_keeps _ _ _
    · exact .refl s

/-! ## Replies and freed places (11 R168, 01 R6) -/

theorem placeReply_keeps (s : State) (on : s.ports.c.on = true) (free : s.ports.c.full = false) :
    Keeps s (placeReply s) := by
  unfold placeReply; split
  · exact .refl s
  · exact (onPort_enter_keeps .c _ _ s on free).trans (.of_eq rfl rfl)
theorem countReply_keeps (s : State) : Keeps s (countReply s) := by
  unfold countReply; split <;> exact .of_eq rfl rfl
theorem holdReply_keeps (s : State) : Keeps s (holdReply s) := by
  unfold holdReply; split <;> exact .of_eq rfl rfl
theorem offerReply_keeps (s : State) : Keeps s (offerReply s) := by
  unfold offerReply; split
  · exact .refl s
  · split
    · exact countReply_keeps s
    · next on =>
      split
      · exact (holdReply_keeps s).trans (onPort_holders_keeps .c (· ++ [.service]) _)
      · next free => exact placeReply_keeps s (by simpa using on) (by simpa using free)
theorem offerReplies_keeps (s : State) : Keeps s (offerReplies s) := by
  unfold offerReplies; dsimp only; split
  · exact offerReply_keeps s
  · exact (offerReply_keeps s).trans (offerReply_keeps _)
theorem makeReply_keeps (r) (s : State) : Keeps s (makeReply r s) := by
  unfold makeReply; dsimp only; split
  · exact .of_eq rfl rfl
  · exact Keeps.trans (.of_eq rfl rfl) (offerReply_keeps _)
theorem answer_keeps (c t st d) (s : State) : Keeps s (answer c t st d s) := makeReply_keeps _ _
theorem recordLeft_keeps (s : State) (r) : Keeps s (recordLeft s r) := by
  unfold recordLeft; split
  · exact onChan_keeps _ _ _
  all_goals exact .refl s
theorem restartReplyLeft_keeps (q r) (s : State) : Keeps s (restartReplyLeft q r s) := by
  unfold restartReplyLeft; split <;> exact .of_eq rfl rfl

/-- A freed place is handed only where there is one. -/
theorem handPlace_keeps (q) (s : State) : Keeps s (handPlace q s) := by
  unfold handPlace; dsimp only; split
  · next h =>
    simp only [Bool.and_eq_true] at h
    have on := h.1
    have free : (s.ports.get q).full = false := by simpa using h.2
    split
    · exact .refl s
    · next h0 rest _ =>
      have hk := onPort_holders_keeps q (fun _ => rest) s
      split
      · next ch =>
        refine (continueSend_keeps _ _).after ((placeChannelFrame_keeps _ _ _ _ ?_ ?_).after ((onChan_keeps _ _ _).after hk))
        · cases q <;> exact on
        · cases q <;> exact free
      · exact (offerReplies_keeps _).after hk
  · exact .refl s
theorem releaseHolder_keeps (s : State) (h) : Keeps s (releaseHolder s h) := by
  unfold releaseHolder; split
  · exact (continueSend_keeps _ _).after (onChan_keeps _ _ _)
  · exact (countReply_keeps _).after (countReply_keeps _)

/-! ## Capture (03) -/

theorem onCap_keeps (ch f) (s : State) : Keeps s (onCap ch f s) := .of_eq rfl rfl
theorem disagreementTest_keeps (s : State) : Keeps s (disagreementTest s) := by
  unfold disagreementTest; dsimp only; split
  · split
    · exact .refl s
    · exact .of_eq rfl rfl
  · exact Keeps.trans (.of_eq rfl rfl) (reportEndedIf_keeps _ _ _ _)
theorem speedNoneTest_keeps (s : State) : Keeps s (speedNoneTest s) := by
  unfold speedNoneTest; dsimp only; split
  · exact Keeps.trans (.of_eq rfl rfl) (reportBegun_keeps _ _ _ _)
  · exact Keeps.trans (.of_eq rfl rfl) (reportEndedIf_keeps _ _ _ _)
theorem lossReturnTest_keeps (ch) (s : State) : Keeps s (lossReturnTest ch s) := .of_eq rfl rfl
theorem captureUpdate_keeps (s : State) : Keeps s (captureUpdate s) :=
  (speedNoneTest_keeps _).after ((lossReturnTest_keeps _ _).after ((lossReturnTest_keeps _ _).after
    ((disagreementTest_keeps _).after (.of_eq rfl rfl))))
theorem edge_keeps (ch d c) (s : State) : Keeps s (edge ch d c s) := by
  unfold edge; dsimp only; split
  · exact .of_eq rfl rfl
  · split
    · exact .of_eq rfl rfl
    · exact (captureUpdate_keeps _).after ((onCap_keeps _ _ _).after (onCap_keeps _ _ _))
theorem standstillExpired_keeps (ch) (s : State) : Keeps s (standstillExpired ch s) :=
  (captureUpdate_keeps _).after (onCap_keeps _ _ _)
theorem windowExpired_keeps (ch) (s : State) : Keeps s (windowExpired ch s) :=
  (captureUpdate_keeps _).after (onCap_keeps _ _ _)
theorem disagreementExpired_keeps (s : State) : Keeps s (disagreementExpired s) :=
  Keeps.trans (.of_eq rfl rfl) (reportBegun_keeps _ _ _ _)
theorem lossExpired_keeps (ch) (s : State) : Keeps s (lossExpired ch s) :=
  (captureUpdate_keeps _).after ((reportBegun_keeps _ _ _ _).after (onCap_keeps _ _ _))
theorem returnExpired_keeps (ch) (s : State) : Keeps s (returnExpired ch s) :=
  (captureUpdate_keeps _).after ((reportEnded_keeps _ _ _).after (onCap_keeps _ _ _))
theorem resetCapture_keeps (s : State) : Keeps s (resetCapture s) :=
  (captureUpdate_keeps _).after ((reportEnded_keeps _ _ _).after ((reportEnded_keeps _ _ _).after
    ((reportEnded_keeps _ _ _).after (.of_eq rfl rfl))))

/-! ## Governor (04, 05) -/

theorem onGov_keeps (f) (s : State) : Keeps s (onGov f s) := .of_eq rfl rfl
theorem selectorStage_keeps (s : State) : Keeps s (selectorStage s) := by
  unfold selectorStage; dsimp only; split
  · split <;> exact .of_eq rfl rfl
  · exact .of_eq rfl rfl
theorem enterNeutral_keeps (s : State) : Keeps s (enterNeutral s) :=
  (onGov_keeps _ _).trans (reportEndedIf_keeps _ _ _ _)
theorem beginStop_keeps (i) (s : State) : Keeps s (beginStop i s) := by
  unfold beginStop; dsimp only; split
  · exact (reportBegun_keeps _ _ _ _).after ((onGov_keeps _ _).after (onGov_keeps _ _))
  · exact onGov_keeps _ _
theorem weighState_keeps (i) (s : State) : Keeps s (weighState i s) := by
  unfold weighState; split
  · exact enterHeld_keeps s
  · split
    · split
      · exact enterHeld_keeps s
      · split
        · exact onGov_keeps _ _
        · exact enterNeutral_keeps s
    · split
      · exact beginStop_keeps _ _
      · exact .refl s
    · split
      · exact beginStop_keeps _ _
      · exact .refl s
    · exact .refl s
    · split
      · exact enterNeutral_keeps s
      · exact enterHeld_keeps s
theorem endStage_keeps (i) (s : State) : Keeps s (endStage i s) := by
  unfold endStage; split
  · split
    · split
      · exact enterHeld_keeps s
      · exact enterNeutral_keeps s
    · split
      · exact enterNeutral_keeps s
      · exact .refl s
    · split
      · exact enterNeutral_keeps s
      · exact .refl s
    · exact .refl s
    · exact .refl s
  · exact .refl s
theorem engineWatch_keeps (i) (s : State) : Keeps s (engineWatch i s) := by
  unfold engineWatch; split
  · exact (onGov_keeps _ _).trans (reportEnded_keeps _ _ _)
  · exact .refl s
theorem overspeedBegins_keeps (s : State) : Keeps s (overspeedBegins s) :=
  (onGov_keeps _ _).trans (reportBegun_keeps _ _ _ _)
theorem overspeedWatch_keeps (i) (s : State) : Keeps s (overspeedWatch i s) := by
  unfold overspeedWatch; dsimp only; split
  · split
    · exact (onGov_keeps _ _).trans (overspeedBegins_keeps _)
    · exact onGov_keeps _ _
  · exact (onGov_keeps _ _).trans (reportEndedIf_keeps _ _ _ _)
theorem governorStages_keeps (i) (s : State) : Keeps s (governorStages i s) := by
  have mid : ∀ u, Keeps s u → Keeps s (if u.gov.state.computes then onGov (compute i) u else u) := by
    intro u hu; split
    · exact hu.trans (onGov_keeps _ _)
    · exact hu
  have start : Keeps s (onGov (cruiseStage i) (weighState i (lockStage i s))) :=
    (onGov_keeps _ _).after ((weighState_keeps _ _).after (onGov_keeps _ _))
  exact (overspeedWatch_keeps _ _).after ((engineWatch_keeps _ _).after ((endStage_keeps _ _).after (mid _ start)))
theorem motorStage_keeps (s : State) : Keeps s (motorStage s) := onGov_keeps _ _
theorem governorBody_keeps (s : State) : Keeps s (governorBody s) :=
  Keeps.after (.of_eq rfl rfl) ((governorStages_keeps (govInputs (motorStage (selectorStage (onGov _ s)))) _).after
    ((motorStage_keeps _).after ((selectorStage_keeps _).after (onGov_keeps _ s))))

/-! ## Arms (06) -/

theorem clearObstruction_keeps (a) (s : State) : Keeps s (clearObstruction a s) := by
  unfold clearObstruction; dsimp only; split
  · exact Keeps.trans (.of_eq rfl rfl) (reportEnded_keeps _ _ _)
  · exact .refl s
theorem deriveDesired_keeps (a) (s : State) : Keeps s (deriveDesired a s) :=
  (clearObstruction_keeps a s).trans (.of_eq rfl rfl)
theorem tryJoin_keeps (a up o) (s : State) : Keeps s (tryJoin a up o s) := by
  unfold tryJoin; split
  · exact join_keeps _ _ _ _
  · exact .refl s
theorem enterState_keeps (a st) (s : State) : Keeps s (enterState a st s) := putArm_keeps _ _ _
theorem turnBack_keeps (a st) (s : State) : Keeps s (turnBack a st s) :=
  (leaveQueue_keeps a s).trans (enterState_keeps _ _ _)
theorem changeWait_keeps (a up) (s : State) : Keeps s (changeWait a up s) := .of_eq rfl rfl
theorem endMotion_keeps (a st) (s : State) : Keeps s (endMotion a st s) := .of_eq rfl rfl
theorem enterFloat_keeps (a) (s : State) : Keeps s (enterFloat a s) := by
  unfold enterFloat; dsimp only; split
  · exact putArm_keeps _ _ _
  · exact .refl s
theorem leaveFloat_keeps (a) (s : State) : Keeps s (leaveFloat a s) := by
  unfold leaveFloat; dsimp only; split
  · exact putArm_keeps _ _ _
  · exact .refl s
theorem onRoad_keeps (a) {w} (h : ∀ a s, Keeps s (w a s)) (s : State) : Keeps s (onRoad a w s) := by
  unfold onRoad; split
  · exact join_keeps _ _ _ _
  · exact h _ _
theorem turnUp_keeps (a) (s : State) : Keeps s (turnUp a s) := by
  unfold turnUp; split
  · exact turnBack_keeps _ _ _
  all_goals
    split
    · exact turnBack_keeps _ _ _
    · exact changeWait_keeps _ _ _
theorem turnDown_keeps (a) (s : State) : Keeps s (turnDown a s) := by
  unfold turnDown; split
  · exact turnBack_keeps _ _ _
  all_goals
    split
    · exact turnBack_keeps _ _ _
    · exact changeWait_keeps _ _ _
theorem leaveInit_keeps (a) (s : State) : Keeps s (leaveInit a s) := by
  unfold leaveInit; split
  · split
    · exact enterState_keeps _ _ _
    · exact tryJoin_keeps _ _ _ _
  · exact .refl s
theorem rejoinArm_keeps (a) (s : State) : Keeps s (rejoinArm s a) := (rejoinArm_publishes s a).keeps
theorem transition_keeps (a) (s : State) : Keeps s (transition a s) := by
  unfold transition; dsimp only; split
  · exact leaveInit_keeps _ _
  · exact .ite _ (tryJoin_keeps _ _ _ _) (.refl s)
  · exact .ite _ (.refl s) (turnUp_keeps _ _)
  · exact .ite _ (turnDown_keeps _ _) (.refl s)
  · exact .ite _ (endMotion_keeps _ _ _) (.refl s)
  · exact .ite _ (endMotion_keeps _ _ _) (.refl s)
  · exact onRoad_keeps _ enterFloat_keeps _
  · exact onRoad_keeps _ leaveFloat_keeps _
  · exact rejoinArm_keeps _ _
  · exact .refl s
theorem armStage_keeps (s : State) (a) : Keeps s (armStage s a) := by
  unfold armStage; dsimp only; split
  · exact Keeps.trans (t := readCfg a s) (.of_eq rfl rfl) ((deriveDesired_keeps _ _).trans (transition_keeps _ _))
  · exact .of_eq rfl rfl
theorem grantTo_keeps (a) (s : State) : Keeps s (grantTo a s) := (leaveQueue_keeps a s).trans (.of_eq rfl rfl)
theorem weighGrant_keeps (s : State) : Keeps s (weighGrant s) := by
  unfold weighGrant; split
  · exact .refl s
  · exact .ite _ (grantTo_keeps _ _) (.refl s)
theorem commandStage_keeps (s : State) (a) : Keeps s (commandStage s a) := .of_eq rfl rfl
theorem banksFollowArms_keeps (s : State) : Keeps s (banksFollowArms s) := closeBanks_keeps _ _
theorem armPeriodBody_keeps (s : State) : Keeps s (armPeriodBody s) :=
  Keeps.after (t := banksFollowArms (allArms.foldl commandStage (weighGrant (allArms.foldl armStage
      { s with lift.timer := msTimer Config.armPeriodMs })))) (.of_eq rfl rfl)
    ((banksFollowArms_keeps _).after ((Keeps.foldl commandStage_keeps _ _).after ((weighGrant_keeps _).after
      ((Keeps.foldl armStage_keeps _ _).after (.of_eq rfl rfl)))))
theorem motionExpired_keeps (a) (s : State) : Keeps s (motionExpired a s) :=
  (weighGrant_keeps _).after ((banksFollowArms_keeps _).after ((reportOnce_keeps _ _ _ _).after (.of_eq rfl rfl)))
theorem floatExpired_keeps (a) (s : State) : Keeps s (floatExpired a s) :=
  Keeps.trans (.of_eq rfl rfl) (reportBegun_keeps _ _ _ _)
theorem waitExpired_keeps (a) (s : State) : Keeps s (waitExpired a s) :=
  Keeps.trans (.of_eq rfl rfl) (reportBegun_keeps _ _ _ _)
theorem unfitArm_keeps (a) (s : State) : Keeps s (unfitArm a s) :=
  (reportEnded_keeps _ _ _).after ((reportEnded_keeps _ _ _).after (Keeps.after (.of_eq rfl rfl) (leaveQueue_keeps a s)))
theorem fitArm_keeps (a) (s : State) : Keeps s (fitArm a s) := putArm_keeps _ _ _
theorem actOnFitted_keeps (o) (s : State) : Keeps s (actOnFitted o s) := by
  refine (banksFollowArms_keeps _).after (Keeps.foldl (fun s a => ?_) _ _)
  split
  · exact unfitArm_keeps _ _
  · exact fitArm_keeps _ _
  · exact .refl s
  · exact .refl s

/-! ## Allocator, doser, channels, cut-off (07 to 10) -/

theorem allocatorBody_keeps (s : State) : Keeps s (allocatorBody s) := .of_eq rfl rfl
theorem onSpray_keeps (f) (s : State) : Keeps s (onSpray f s) := .of_eq rfl rfl
theorem lowCheck_keeps (s : State) : Keeps s (lowCheck s) := by
  unfold lowCheck; dsimp only; split
  · split
    · split
      · exact (onSpray_keeps _ _).trans (reportBegun_keeps _ _ _ _)
      · exact .refl s
    · split
      · exact (onSpray_keeps _ _).trans (reportEndedIf_keeps _ _ _ _)
      · exact .refl s
  · exact .refl s
theorem dryCheck_keeps (s : State) : Keeps s (dryCheck s) := by
  unfold dryCheck; dsimp only; split
  · exact (onSpray_keeps _ _).trans (reportBegun_keeps _ _ _ _)
  · exact (onSpray_keeps _ _).trans (reportEndedIf_keeps _ _ _ _)
theorem sprayBody_keeps (s : State) : Keeps s (sprayBody s) :=
  Keeps.after (t := dryCheck (lowCheck (onSpray (fun p => { p with timer := msTimer Config.sprayPeriodMs }) s)))
    (.of_eq rfl rfl) ((dryCheck_keeps _).after ((lowCheck_keeps _).after (onSpray_keeps _ _)))
theorem intervalExpired_keeps (ch) (s : State) : Keeps s (intervalExpired ch s) :=
  (onChan_keeps _ _ _).trans (giveTrigger_keeps _ _)
theorem setLatch_keeps (s : State) : Keeps s (setLatch s) := Keeps.trans (.of_eq rfl rfl) (reportBegun_keeps _ _ _ _)
theorem weighRelease_keeps (s : State) : Keeps s (weighRelease s) := by
  unfold weighRelease; split
  · exact Keeps.trans (.of_eq rfl rfl) (reportEnded_keeps _ _ _)
  · exact .of_eq rfl rfl
theorem cutoffActiveBody_keeps (s : State) : Keeps s (cutoffActiveBody s) := by
  unfold cutoffActiveBody; dsimp only; split
  · exact .of_eq rfl rfl
  · exact Keeps.trans (.of_eq rfl rfl) (setLatch_keeps _)
theorem cutoffInactiveBody_keeps (s : State) : Keeps s (cutoffInactiveBody s) := by
  unfold cutoffInactiveBody; dsimp only; split
  · exact Keeps.trans (.of_eq rfl rfl) (weighRelease_keeps _)
  · exact .of_eq rfl rfl

end Sys2Proof.Machine
end

