-- ==== Sys2Proof/Laws/Level.lean ====
section
/-! SUPPORT. The response level: forming it always leaves it at what the list and the latch give, and the end of an event
that has nothing to form and nothing to trigger changes nothing. -/

namespace Sys2Proof.Machine

/-! ## The published level under reports and responses -/

/-- What is formed does not depend on the published level. -/
@[simp] theorem formed_setLevel (f : Faults) (l : Fin 4) : ({ f with level := l } : Faults).formed = f.formed := rfl

theorem reportEnded_level (k n) (s : State) : (reportEnded k n s).faults.level = s.faults.level := by
  unfold reportEnded; dsimp only; split
  · rfl
  · split <;> rfl
theorem reportEndedIf_level (b k n) (s : State) : (reportEndedIf b k n s).faults.level = s.faults.level := by
  cases b
  · rfl
  · exact reportEnded_level k n s
theorem enterHeld_level (s : State) : (enterHeld s).faults.level = s.faults.level := reportEndedIf_level _ _ _ _
theorem freezeArm_level (l) (s : State) (a) : (freezeArm l s a).faults.level = s.faults.level := by
  unfold freezeArm; dsimp only; split
  · exact reportEnded_level _ _ _
  · rfl
theorem freezeCircuit_level (s : State) : (freezeCircuit s).faults.level = s.faults.level := by
  have h : ∀ (order l : List Arm) (s : State), (l.foldl (freezeArm order) s).faults.level = s.faults.level := by
    intro order l
    induction l with
    | nil => intro s; rfl
    | cons a l ih => intro s; exact (ih _).trans (freezeArm_level _ _ _)
  exact h _ _ s
theorem rejoinArm_faults (s : State) (a) : (rejoinArm s a).faults = s.faults := by
  unfold rejoinArm; dsimp only; split
  · split <;> rfl
  · rfl
theorem rejoinFrozen_faults (s : State) : (rejoinFrozen s).faults = s.faults := by
  have h : ∀ (l : List Arm) (s : State), (l.foldl rejoinArm s).faults = s.faults := by
    intro l
    induction l with
    | nil => intro s; rfl
    | cons a l ih => intro s; exact (ih _).trans (rejoinArm_faults _ _)
  exact h _ s
theorem closeBanks_faults (c) (s : State) : (closeBanks c s).faults = s.faults := by
  unfold closeBanks; dsimp only; split <;> rfl

/-! ## Publication -/

/-- A publication publishes the level it is given. -/
theorem publish_level (l : Fin 4) (s : State) : (publish l s).faults.level = l := by
  have h : (if l = 3 then freezeCircuit (enterHeld { markFaultChange { s with faults.level := l } with gov.lock := true })
      else rejoinFrozen (markFaultChange { s with faults.level := l })).faults.level = l := by
    split
    · exact (freezeCircuit_level _).trans ((enterHeld_level _).trans rfl)
    · exact (congrArg Faults.level (rejoinFrozen_faults _)).trans rfl
  unfold publish; dsimp only; split
  · exact (congrArg Faults.level (closeBanks_faults _ _)).trans h
  · exact h

/-- Below level 3 a publication changes nothing else in the supervisor. -/
theorem publish_faults_below (l : Fin 4) (s : State) (h : l ≠ 3) : (publish l s).faults = { s.faults with level := l } := by
  unfold publish; dsimp only; rw [if_neg h]; split
  · exact (closeBanks_faults _ _).trans ((rejoinFrozen_faults _).trans rfl)
  · exact (rejoinFrozen_faults _).trans rfl

/-- The level stands when it is what the list and the latch give. -/
theorem formOnce_stands_below (s : State) (h : s.faults.formed ≠ 3) :
    (formOnce s).faults.level = (formOnce s).faults.formed := by
  unfold formOnce; split
  · next e => exact e.symm
  · rw [publish_faults_below _ _ h]; rfl

/-- Forming the level leaves it at what the list and the latch give (10 R161). -/
theorem formLevel_stands (s : State) : (formLevel s).faults.level = (formLevel s).faults.formed := by
  unfold formLevel
  by_cases h : (formOnce s).faults.formed = 3
  · by_cases e : (formOnce s).faults.formed = (formOnce s).faults.level
    · rw [show formOnce (formOnce s) = formOnce s from if_pos e]; exact e.symm
    · exfalso
      by_cases h3 : s.faults.formed = 3
      · by_cases e3 : s.faults.formed = s.faults.level
        · rw [show formOnce s = s from if_pos e3] at e; exact e e3
        · rw [show formOnce s = publish s.faults.formed s from if_neg e3] at e h
          rw [publish_level, h, h3] at e; exact e rfl
      · exact e (formOnce_stands_below s h3).symm
  · exact formOnce_stands_below _ h

/-- Nothing is formed where the level stands. -/
theorem formLevel_eq (s : State) (h : s.faults.level = s.faults.formed) : formLevel s = s := by
  have e : formOnce s = s := if_pos h.symm
  unfold formLevel; rw [e, e]

/-! ## The end of an event -/

/-- Clear marks give no trigger. -/
theorem giveTriggers_none (s : State) (h : s.ev = .none) : giveTriggers s = s := by
  have g : ∀ ch : Fin 6, s.ev.gives (s.chanCfg ch).source = false := by
    intro ch; rw [h]; cases (s.chanCfg ch).source <;> rfl
  have f : (allFin 6).filter (fun ch => s.ev.gives (s.chanCfg ch).source) = [] := by
    simp [g]
  unfold giveTriggers; rw [f]
  show { s with ev := s.ev.given } = s
  rw [h]
  cases s; simp only at h; subst h; rfl

/-- At the end of an event of the running part the level stands and the marks are clear. -/
theorem finish_stands (s : State) (h : s.power = .running) :
    (finish s).faults.level = (finish s).faults.formed ∧ (finish s).ev = .none := by
  have k : ∀ v : State, ({ formLevel v with ev := .none } : State).faults.level
      = ({ formLevel v with ev := .none } : State).faults.formed ∧ ({ formLevel v with ev := .none } : State).ev = .none :=
    fun v => ⟨formLevel_stands v, rfl⟩
  unfold finish; rw [if_pos h]
  exact k _

/-- The end of an event whose level stands and whose marks are clear changes nothing. -/
theorem finish_quiet (s : State) (h : s.faults.level = s.faults.formed) (m : s.ev = .none) : finish s = s := by
  have e : { s with ev := .none } = s := by cases s; simp only at m; subst m; rfl
  unfold finish; split
  · simp only [formLevel_eq s h, giveTriggers_none s m, e]
  · exact e

end Sys2Proof.Machine
end

