-- ==== Sys2Proof/Laws/Memory.lean ====
section
/-! SUPPORT. The record pages of the nonvolatile area: every write keeps the canonical form, and a read after a write
gives the byte written at its address and what stood there everywhere else. -/

namespace Sys2Proof.Machine

/-- A form that starts late starts early. -/
theorem Memory.wfFrom_mono {m : List Host.Cell} {lo lo' : Nat} (h : lo' ≤ lo) (w : Memory.wfFrom lo m = true) :
    Memory.wfFrom lo' m = true := by
  cases m with
  | nil => rfl
  | cons c m =>
    obtain ⟨k, v⟩ := c
    simp only [Memory.wfFrom, Bool.and_eq_true, decide_eq_true_eq] at w ⊢
    exact ⟨⟨le_trans h w.1.1, w.1.2⟩, w.2⟩

/-- A write keeps the canonical form from any address at or before it. -/
theorem Memory.write_wfFrom (m : List Host.Cell) (a : Nat) (v : Byte) :
    ∀ lo, lo ≤ a → Memory.wfFrom lo m = true → Memory.wfFrom lo (Memory.write m a v) = true := by
  induction m with
  | nil =>
    intro lo h _
    unfold Memory.write
    split
    · rfl
    · simp_all [Memory.wfFrom]
  | cons c m ih =>
    obtain ⟨k, w⟩ := c
    intro lo h hw
    have hw' := hw
    simp only [Memory.wfFrom, Bool.and_eq_true, decide_eq_true_eq] at hw
    unfold Memory.write
    split
    · split
      · exact hw'
      · simp only [Memory.wfFrom, Bool.and_eq_true, decide_eq_true_eq]
        exact ⟨⟨h, by simp_all⟩, ⟨by omega, hw.1.2⟩, hw.2⟩
    · split
      · next _ e =>
        subst e
        split
        · exact Memory.wfFrom_mono (by omega) hw.2
        · simp only [Memory.wfFrom, Bool.and_eq_true, decide_eq_true_eq]
          exact ⟨⟨h, by simp_all⟩, hw.2⟩
      · simp only [Memory.wfFrom, Bool.and_eq_true, decide_eq_true_eq]
        exact ⟨hw.1, ih _ (by omega) hw.2⟩

/-- A write keeps the canonical form. -/
theorem Memory.write_wf (m : List Host.Cell) (a : Nat) (v : Byte) (h : Memory.wf m = true) :
    Memory.wf (Memory.write m a v) = true := Memory.write_wfFrom m a v 0 (Nat.zero_le a) h

/-- Writing a run of bytes keeps the canonical form. -/
theorem Memory.writeAll_wf (vs : List Byte) :
    ∀ (m : List Host.Cell) (a : Nat), Memory.wf m = true → Memory.wf (Memory.writeAll m a vs) = true := by
  induction vs with
  | nil => exact fun _ _ h => h
  | cons v vs ih => exact fun m a h => ih _ _ (Memory.write_wf m a v h)

/-- Below the first address a form may list, every byte reads 0. -/
theorem Memory.read_below {m : List Host.Cell} : ∀ {lo : Nat}, Memory.wfFrom lo m = true → ∀ {a}, a < lo →
    Memory.read m a = 0 := by
  induction m with
  | nil => exact fun _ _ _ => rfl
  | cons c m ih =>
    obtain ⟨k, v⟩ := c
    intro lo h a ha
    simp only [Memory.wfFrom, Bool.and_eq_true, decide_eq_true_eq] at h
    unfold Memory.read
    rw [if_neg (by omega)]
    exact ih h.2 (by omega)

/-- What an address reads after a write. -/
theorem Memory.read_write (m : List Host.Cell) (a : Nat) (v : Byte) (b : Nat) :
    ∀ lo, Memory.wfFrom lo m = true → Memory.read (Memory.write m a v) b = if b = a then v else Memory.read m b := by
  induction m with
  | nil =>
    intro lo _
    unfold Memory.write
    by_cases hv : v = 0
    · rw [if_pos hv]
      by_cases h : b = a
      · rw [if_pos h, hv]; rfl
      · rw [if_neg h]
    · rw [if_neg hv]; simp only [Memory.read]
  | cons c m ih =>
    obtain ⟨k, w⟩ := c
    intro lo hw
    simp only [Memory.wfFrom, Bool.and_eq_true, decide_eq_true_eq] at hw
    unfold Memory.write
    by_cases h1 : a < k
    · rw [if_pos h1]
      by_cases hv : v = 0
      · rw [if_pos hv]
        by_cases h : b = a
        · subst h
          rw [if_pos rfl, hv]
          unfold Memory.read
          rw [if_neg (by omega)]
          exact Memory.read_below hw.2 (by omega)
        · rw [if_neg h]
      · rw [if_neg hv]; simp only [Memory.read]
    · rw [if_neg h1]
      by_cases h2 : a = k
      · subst h2
        rw [if_pos rfl]
        by_cases hv : v = 0
        · rw [if_pos hv]
          by_cases h : b = a
          · subst h; rw [if_pos rfl, hv]; exact Memory.read_below hw.2 (by omega)
          · rw [if_neg h]; simp only [Memory.read, if_neg h]
        · rw [if_neg hv]
          by_cases h : b = a
          · simp [Memory.read, h]
          · simp [Memory.read, h]
      · rw [if_neg h2]
        by_cases h : b = k
        · subst h
          rw [if_neg (by omega)]
          simp [Memory.read]
        · simp only [Memory.read, if_neg h]
          exact ih _ hw.2

/-- What an address reads after a run of bytes is written. -/
theorem Memory.read_writeAll (vs : List Byte) :
    ∀ (m : List Host.Cell) (a b : Nat), Memory.wf m = true →
      Memory.read (Memory.writeAll m a vs) b
        = if a ≤ b ∧ b < a + vs.length then vs.getD (b - a) 0 else Memory.read m b := by
  induction vs with
  | nil =>
    intro m a b _
    have h : ¬(a ≤ b ∧ b < a + ([] : List Byte).length) := by simp
    rw [if_neg h]; rfl
  | cons v vs ih =>
    intro m a b h
    show Memory.read (Memory.writeAll (Memory.write m a v) (a + 1) vs) b = _
    rw [ih _ _ _ (Memory.write_wf m a v h), Memory.read_write m a v b 0 h]
    simp only [List.length_cons]
    by_cases h1 : b = a
    · subst h1
      rw [if_neg (by omega), if_pos rfl, if_pos (by omega)]; simp
    · by_cases h2 : a + 1 ≤ b ∧ b < a + 1 + vs.length
      · rw [if_pos h2, if_pos (by omega)]
        obtain ⟨d, rfl⟩ : ∃ d, b = a + 1 + d := ⟨b - (a + 1), by omega⟩
        rw [show a + 1 + d - (a + 1) = d by omega, show a + 1 + d - a = d + 1 by omega, List.getD_cons_succ]
      · rw [if_neg h2, if_neg h1, if_neg (by omega)]

/-- A run of bytes reads back as written. -/
theorem Memory.readAll_length (m : List Host.Cell) (n : Nat) : ∀ a, (Memory.readAll m a n).length = n := by
  induction n with
  | zero => exact fun _ => rfl
  | succ n ih => exact fun a => congrArg (· + 1) (ih (a + 1))

end Sys2Proof.Machine
end

