-- ==== Sys2Proof/Laws/State.lean ====
section
/-! SUPPORT. One lemma per field for each named update of State, all true by definition, so that no proof unfolds a record
update; what a replaced entry reads; and the fields that the passing of time leaves. -/

namespace Sys2Proof.Machine

/-! ## Fields an update leaves -/

section
variable (s : State) (n : Fin 48) (f : SlotRun → SlotRun)
@[simp] theorem onSlot_power : (onSlot n f s).power = s.power := rfl
@[simp] theorem onSlot_cutoffLine : (onSlot n f s).cutoffLine = s.cutoffLine := rfl
@[simp] theorem onSlot_ignLine : (onSlot n f s).ignLine = s.ignLine := rfl
@[simp] theorem onSlot_timeUs : (onSlot n f s).timeUs = s.timeUs := rfl
@[simp] theorem onSlot_clock : (onSlot n f s).clock = s.clock := rfl
@[simp] theorem onSlot_cause : (onSlot n f s).cause = s.cause := rfl
@[simp] theorem onSlot_shutdown : (onSlot n f s).shutdown = s.shutdown := rfl
@[simp] theorem onSlot_tables : (onSlot n f s).tables = s.tables := rfl
@[simp] theorem onSlot_nvm : (onSlot n f s).nvm = s.nvm := rfl
@[simp] theorem onSlot_store : (onSlot n f s).store = s.store := rfl
@[simp] theorem onSlot_ports : (onSlot n f s).ports = s.ports := rfl
@[simp] theorem onSlot_senders : (onSlot n f s).senders = s.senders := rfl
@[simp] theorem onSlot_written : (onSlot n f s).written = s.written := rfl
@[simp] theorem onSlot_ackReading : (onSlot n f s).ackReading = s.ackReading := rfl
@[simp] theorem onSlot_capture : (onSlot n f s).capture = s.capture := rfl
@[simp] theorem onSlot_selector : (onSlot n f s).selector = s.selector := rfl
@[simp] theorem onSlot_gov : (onSlot n f s).gov = s.gov := rfl
@[simp] theorem onSlot_arms : (onSlot n f s).arms = s.arms := rfl
@[simp] theorem onSlot_lift : (onSlot n f s).lift = s.lift := rfl
@[simp] theorem onSlot_alloc : (onSlot n f s).alloc = s.alloc := rfl
@[simp] theorem onSlot_spray : (onSlot n f s).spray = s.spray := rfl
@[simp] theorem onSlot_channels : (onSlot n f s).channels = s.channels := rfl
@[simp] theorem onSlot_faults : (onSlot n f s).faults = s.faults := rfl
@[simp] theorem onSlot_service : (onSlot n f s).service = s.service := rfl
@[simp] theorem onSlot_choices : (onSlot n f s).choices = s.choices := rfl
@[simp] theorem onSlot_ev : (onSlot n f s).ev = s.ev := rfl
@[simp] theorem onSlot_pending : (onSlot n f s).pending = s.pending := rfl
end

section
variable (s : State) (i : Fin 24) (f : SenderRec → SenderRec)
@[simp] theorem onSender_power : (onSender i f s).power = s.power := rfl
@[simp] theorem onSender_cutoffLine : (onSender i f s).cutoffLine = s.cutoffLine := rfl
@[simp] theorem onSender_ignLine : (onSender i f s).ignLine = s.ignLine := rfl
@[simp] theorem onSender_timeUs : (onSender i f s).timeUs = s.timeUs := rfl
@[simp] theorem onSender_clock : (onSender i f s).clock = s.clock := rfl
@[simp] theorem onSender_cause : (onSender i f s).cause = s.cause := rfl
@[simp] theorem onSender_shutdown : (onSender i f s).shutdown = s.shutdown := rfl
@[simp] theorem onSender_tables : (onSender i f s).tables = s.tables := rfl
@[simp] theorem onSender_nvm : (onSender i f s).nvm = s.nvm := rfl
@[simp] theorem onSender_store : (onSender i f s).store = s.store := rfl
@[simp] theorem onSender_ports : (onSender i f s).ports = s.ports := rfl
@[simp] theorem onSender_slots : (onSender i f s).slots = s.slots := rfl
@[simp] theorem onSender_written : (onSender i f s).written = s.written := rfl
@[simp] theorem onSender_ackReading : (onSender i f s).ackReading = s.ackReading := rfl
@[simp] theorem onSender_capture : (onSender i f s).capture = s.capture := rfl
@[simp] theorem onSender_selector : (onSender i f s).selector = s.selector := rfl
@[simp] theorem onSender_gov : (onSender i f s).gov = s.gov := rfl
@[simp] theorem onSender_arms : (onSender i f s).arms = s.arms := rfl
@[simp] theorem onSender_lift : (onSender i f s).lift = s.lift := rfl
@[simp] theorem onSender_alloc : (onSender i f s).alloc = s.alloc := rfl
@[simp] theorem onSender_spray : (onSender i f s).spray = s.spray := rfl
@[simp] theorem onSender_channels : (onSender i f s).channels = s.channels := rfl
@[simp] theorem onSender_faults : (onSender i f s).faults = s.faults := rfl
@[simp] theorem onSender_service : (onSender i f s).service = s.service := rfl
@[simp] theorem onSender_choices : (onSender i f s).choices = s.choices := rfl
@[simp] theorem onSender_ev : (onSender i f s).ev = s.ev := rfl
@[simp] theorem onSender_pending : (onSender i f s).pending = s.pending := rfl
end

section
variable (s : State) (ch : Fin 6) (f : ChanRun → ChanRun)
@[simp] theorem onChan_power : (onChan ch f s).power = s.power := rfl
@[simp] theorem onChan_cutoffLine : (onChan ch f s).cutoffLine = s.cutoffLine := rfl
@[simp] theorem onChan_ignLine : (onChan ch f s).ignLine = s.ignLine := rfl
@[simp] theorem onChan_timeUs : (onChan ch f s).timeUs = s.timeUs := rfl
@[simp] theorem onChan_clock : (onChan ch f s).clock = s.clock := rfl
@[simp] theorem onChan_cause : (onChan ch f s).cause = s.cause := rfl
@[simp] theorem onChan_shutdown : (onChan ch f s).shutdown = s.shutdown := rfl
@[simp] theorem onChan_tables : (onChan ch f s).tables = s.tables := rfl
@[simp] theorem onChan_nvm : (onChan ch f s).nvm = s.nvm := rfl
@[simp] theorem onChan_store : (onChan ch f s).store = s.store := rfl
@[simp] theorem onChan_ports : (onChan ch f s).ports = s.ports := rfl
@[simp] theorem onChan_slots : (onChan ch f s).slots = s.slots := rfl
@[simp] theorem onChan_senders : (onChan ch f s).senders = s.senders := rfl
@[simp] theorem onChan_written : (onChan ch f s).written = s.written := rfl
@[simp] theorem onChan_ackReading : (onChan ch f s).ackReading = s.ackReading := rfl
@[simp] theorem onChan_capture : (onChan ch f s).capture = s.capture := rfl
@[simp] theorem onChan_selector : (onChan ch f s).selector = s.selector := rfl
@[simp] theorem onChan_gov : (onChan ch f s).gov = s.gov := rfl
@[simp] theorem onChan_arms : (onChan ch f s).arms = s.arms := rfl
@[simp] theorem onChan_lift : (onChan ch f s).lift = s.lift := rfl
@[simp] theorem onChan_alloc : (onChan ch f s).alloc = s.alloc := rfl
@[simp] theorem onChan_spray : (onChan ch f s).spray = s.spray := rfl
@[simp] theorem onChan_faults : (onChan ch f s).faults = s.faults := rfl
@[simp] theorem onChan_service : (onChan ch f s).service = s.service := rfl
@[simp] theorem onChan_choices : (onChan ch f s).choices = s.choices := rfl
@[simp] theorem onChan_ev : (onChan ch f s).ev = s.ev := rfl
@[simp] theorem onChan_pending : (onChan ch f s).pending = s.pending := rfl
end

section
variable (s : State) (ch : CapCh) (f : CapRun → CapRun)
@[simp] theorem onCap_power : (onCap ch f s).power = s.power := rfl
@[simp] theorem onCap_cutoffLine : (onCap ch f s).cutoffLine = s.cutoffLine := rfl
@[simp] theorem onCap_ignLine : (onCap ch f s).ignLine = s.ignLine := rfl
@[simp] theorem onCap_timeUs : (onCap ch f s).timeUs = s.timeUs := rfl
@[simp] theorem onCap_clock : (onCap ch f s).clock = s.clock := rfl
@[simp] theorem onCap_cause : (onCap ch f s).cause = s.cause := rfl
@[simp] theorem onCap_shutdown : (onCap ch f s).shutdown = s.shutdown := rfl
@[simp] theorem onCap_tables : (onCap ch f s).tables = s.tables := rfl
@[simp] theorem onCap_nvm : (onCap ch f s).nvm = s.nvm := rfl
@[simp] theorem onCap_store : (onCap ch f s).store = s.store := rfl
@[simp] theorem onCap_ports : (onCap ch f s).ports = s.ports := rfl
@[simp] theorem onCap_slots : (onCap ch f s).slots = s.slots := rfl
@[simp] theorem onCap_senders : (onCap ch f s).senders = s.senders := rfl
@[simp] theorem onCap_written : (onCap ch f s).written = s.written := rfl
@[simp] theorem onCap_ackReading : (onCap ch f s).ackReading = s.ackReading := rfl
@[simp] theorem onCap_selector : (onCap ch f s).selector = s.selector := rfl
@[simp] theorem onCap_gov : (onCap ch f s).gov = s.gov := rfl
@[simp] theorem onCap_arms : (onCap ch f s).arms = s.arms := rfl
@[simp] theorem onCap_lift : (onCap ch f s).lift = s.lift := rfl
@[simp] theorem onCap_alloc : (onCap ch f s).alloc = s.alloc := rfl
@[simp] theorem onCap_spray : (onCap ch f s).spray = s.spray := rfl
@[simp] theorem onCap_channels : (onCap ch f s).channels = s.channels := rfl
@[simp] theorem onCap_faults : (onCap ch f s).faults = s.faults := rfl
@[simp] theorem onCap_service : (onCap ch f s).service = s.service := rfl
@[simp] theorem onCap_choices : (onCap ch f s).choices = s.choices := rfl
@[simp] theorem onCap_ev : (onCap ch f s).ev = s.ev := rfl
@[simp] theorem onCap_pending : (onCap ch f s).pending = s.pending := rfl
end

section
variable (s : State) (f : Gov → Gov)
@[simp] theorem onGov_power : (onGov f s).power = s.power := rfl
@[simp] theorem onGov_cutoffLine : (onGov f s).cutoffLine = s.cutoffLine := rfl
@[simp] theorem onGov_ignLine : (onGov f s).ignLine = s.ignLine := rfl
@[simp] theorem onGov_timeUs : (onGov f s).timeUs = s.timeUs := rfl
@[simp] theorem onGov_clock : (onGov f s).clock = s.clock := rfl
@[simp] theorem onGov_cause : (onGov f s).cause = s.cause := rfl
@[simp] theorem onGov_shutdown : (onGov f s).shutdown = s.shutdown := rfl
@[simp] theorem onGov_tables : (onGov f s).tables = s.tables := rfl
@[simp] theorem onGov_nvm : (onGov f s).nvm = s.nvm := rfl
@[simp] theorem onGov_store : (onGov f s).store = s.store := rfl
@[simp] theorem onGov_ports : (onGov f s).ports = s.ports := rfl
@[simp] theorem onGov_slots : (onGov f s).slots = s.slots := rfl
@[simp] theorem onGov_senders : (onGov f s).senders = s.senders := rfl
@[simp] theorem onGov_written : (onGov f s).written = s.written := rfl
@[simp] theorem onGov_ackReading : (onGov f s).ackReading = s.ackReading := rfl
@[simp] theorem onGov_capture : (onGov f s).capture = s.capture := rfl
@[simp] theorem onGov_selector : (onGov f s).selector = s.selector := rfl
@[simp] theorem onGov_arms : (onGov f s).arms = s.arms := rfl
@[simp] theorem onGov_lift : (onGov f s).lift = s.lift := rfl
@[simp] theorem onGov_alloc : (onGov f s).alloc = s.alloc := rfl
@[simp] theorem onGov_spray : (onGov f s).spray = s.spray := rfl
@[simp] theorem onGov_channels : (onGov f s).channels = s.channels := rfl
@[simp] theorem onGov_faults : (onGov f s).faults = s.faults := rfl
@[simp] theorem onGov_service : (onGov f s).service = s.service := rfl
@[simp] theorem onGov_choices : (onGov f s).choices = s.choices := rfl
@[simp] theorem onGov_ev : (onGov f s).ev = s.ev := rfl
@[simp] theorem onGov_pending : (onGov f s).pending = s.pending := rfl
end

section
variable (s : State) (f : Spray → Spray)
@[simp] theorem onSpray_power : (onSpray f s).power = s.power := rfl
@[simp] theorem onSpray_cutoffLine : (onSpray f s).cutoffLine = s.cutoffLine := rfl
@[simp] theorem onSpray_ignLine : (onSpray f s).ignLine = s.ignLine := rfl
@[simp] theorem onSpray_timeUs : (onSpray f s).timeUs = s.timeUs := rfl
@[simp] theorem onSpray_clock : (onSpray f s).clock = s.clock := rfl
@[simp] theorem onSpray_cause : (onSpray f s).cause = s.cause := rfl
@[simp] theorem onSpray_shutdown : (onSpray f s).shutdown = s.shutdown := rfl
@[simp] theorem onSpray_tables : (onSpray f s).tables = s.tables := rfl
@[simp] theorem onSpray_nvm : (onSpray f s).nvm = s.nvm := rfl
@[simp] theorem onSpray_store : (onSpray f s).store = s.store := rfl
@[simp] theorem onSpray_ports : (onSpray f s).ports = s.ports := rfl
@[simp] theorem onSpray_slots : (onSpray f s).slots = s.slots := rfl
@[simp] theorem onSpray_senders : (onSpray f s).senders = s.senders := rfl
@[simp] theorem onSpray_written : (onSpray f s).written = s.written := rfl
@[simp] theorem onSpray_ackReading : (onSpray f s).ackReading = s.ackReading := rfl
@[simp] theorem onSpray_capture : (onSpray f s).capture = s.capture := rfl
@[simp] theorem onSpray_selector : (onSpray f s).selector = s.selector := rfl
@[simp] theorem onSpray_gov : (onSpray f s).gov = s.gov := rfl
@[simp] theorem onSpray_arms : (onSpray f s).arms = s.arms := rfl
@[simp] theorem onSpray_lift : (onSpray f s).lift = s.lift := rfl
@[simp] theorem onSpray_alloc : (onSpray f s).alloc = s.alloc := rfl
@[simp] theorem onSpray_channels : (onSpray f s).channels = s.channels := rfl
@[simp] theorem onSpray_faults : (onSpray f s).faults = s.faults := rfl
@[simp] theorem onSpray_service : (onSpray f s).service = s.service := rfl
@[simp] theorem onSpray_choices : (onSpray f s).choices = s.choices := rfl
@[simp] theorem onSpray_ev : (onSpray f s).ev = s.ev := rfl
@[simp] theorem onSpray_pending : (onSpray f s).pending = s.pending := rfl
end

section
variable (s : State) (q : Port) (f : PortUnit → PortUnit)
@[simp] theorem onPort_power : (s.onPort q f).power = s.power := rfl
@[simp] theorem onPort_cutoffLine : (s.onPort q f).cutoffLine = s.cutoffLine := rfl
@[simp] theorem onPort_ignLine : (s.onPort q f).ignLine = s.ignLine := rfl
@[simp] theorem onPort_timeUs : (s.onPort q f).timeUs = s.timeUs := rfl
@[simp] theorem onPort_clock : (s.onPort q f).clock = s.clock := rfl
@[simp] theorem onPort_cause : (s.onPort q f).cause = s.cause := rfl
@[simp] theorem onPort_shutdown : (s.onPort q f).shutdown = s.shutdown := rfl
@[simp] theorem onPort_tables : (s.onPort q f).tables = s.tables := rfl
@[simp] theorem onPort_nvm : (s.onPort q f).nvm = s.nvm := rfl
@[simp] theorem onPort_store : (s.onPort q f).store = s.store := rfl
@[simp] theorem onPort_slots : (s.onPort q f).slots = s.slots := rfl
@[simp] theorem onPort_senders : (s.onPort q f).senders = s.senders := rfl
@[simp] theorem onPort_written : (s.onPort q f).written = s.written := rfl
@[simp] theorem onPort_ackReading : (s.onPort q f).ackReading = s.ackReading := rfl
@[simp] theorem onPort_capture : (s.onPort q f).capture = s.capture := rfl
@[simp] theorem onPort_selector : (s.onPort q f).selector = s.selector := rfl
@[simp] theorem onPort_gov : (s.onPort q f).gov = s.gov := rfl
@[simp] theorem onPort_arms : (s.onPort q f).arms = s.arms := rfl
@[simp] theorem onPort_lift : (s.onPort q f).lift = s.lift := rfl
@[simp] theorem onPort_alloc : (s.onPort q f).alloc = s.alloc := rfl
@[simp] theorem onPort_spray : (s.onPort q f).spray = s.spray := rfl
@[simp] theorem onPort_channels : (s.onPort q f).channels = s.channels := rfl
@[simp] theorem onPort_faults : (s.onPort q f).faults = s.faults := rfl
@[simp] theorem onPort_service : (s.onPort q f).service = s.service := rfl
@[simp] theorem onPort_choices : (s.onPort q f).choices = s.choices := rfl
@[simp] theorem onPort_ev : (s.onPort q f).ev = s.ev := rfl
@[simp] theorem onPort_pending : (s.onPort q f).pending = s.pending := rfl
end

section
variable (s : State) (a : Arm) (r : ArmRec)
@[simp] theorem putArm_power : (putArm a r s).power = s.power := rfl
@[simp] theorem putArm_cutoffLine : (putArm a r s).cutoffLine = s.cutoffLine := rfl
@[simp] theorem putArm_ignLine : (putArm a r s).ignLine = s.ignLine := rfl
@[simp] theorem putArm_timeUs : (putArm a r s).timeUs = s.timeUs := rfl
@[simp] theorem putArm_clock : (putArm a r s).clock = s.clock := rfl
@[simp] theorem putArm_cause : (putArm a r s).cause = s.cause := rfl
@[simp] theorem putArm_shutdown : (putArm a r s).shutdown = s.shutdown := rfl
@[simp] theorem putArm_tables : (putArm a r s).tables = s.tables := rfl
@[simp] theorem putArm_nvm : (putArm a r s).nvm = s.nvm := rfl
@[simp] theorem putArm_store : (putArm a r s).store = s.store := rfl
@[simp] theorem putArm_ports : (putArm a r s).ports = s.ports := rfl
@[simp] theorem putArm_slots : (putArm a r s).slots = s.slots := rfl
@[simp] theorem putArm_senders : (putArm a r s).senders = s.senders := rfl
@[simp] theorem putArm_written : (putArm a r s).written = s.written := rfl
@[simp] theorem putArm_ackReading : (putArm a r s).ackReading = s.ackReading := rfl
@[simp] theorem putArm_capture : (putArm a r s).capture = s.capture := rfl
@[simp] theorem putArm_selector : (putArm a r s).selector = s.selector := rfl
@[simp] theorem putArm_gov : (putArm a r s).gov = s.gov := rfl
@[simp] theorem putArm_lift : (putArm a r s).lift = s.lift := rfl
@[simp] theorem putArm_alloc : (putArm a r s).alloc = s.alloc := rfl
@[simp] theorem putArm_spray : (putArm a r s).spray = s.spray := rfl
@[simp] theorem putArm_channels : (putArm a r s).channels = s.channels := rfl
@[simp] theorem putArm_faults : (putArm a r s).faults = s.faults := rfl
@[simp] theorem putArm_service : (putArm a r s).service = s.service := rfl
@[simp] theorem putArm_choices : (putArm a r s).choices = s.choices := rfl
@[simp] theorem putArm_pending : (putArm a r s).pending = s.pending := rfl
end

section
variable (s : State)
@[simp] theorem markFaultChange_power : (markFaultChange s).power = s.power := rfl
@[simp] theorem markFaultChange_cutoffLine : (markFaultChange s).cutoffLine = s.cutoffLine := rfl
@[simp] theorem markFaultChange_ignLine : (markFaultChange s).ignLine = s.ignLine := rfl
@[simp] theorem markFaultChange_timeUs : (markFaultChange s).timeUs = s.timeUs := rfl
@[simp] theorem markFaultChange_clock : (markFaultChange s).clock = s.clock := rfl
@[simp] theorem markFaultChange_cause : (markFaultChange s).cause = s.cause := rfl
@[simp] theorem markFaultChange_shutdown : (markFaultChange s).shutdown = s.shutdown := rfl
@[simp] theorem markFaultChange_tables : (markFaultChange s).tables = s.tables := rfl
@[simp] theorem markFaultChange_nvm : (markFaultChange s).nvm = s.nvm := rfl
@[simp] theorem markFaultChange_store : (markFaultChange s).store = s.store := rfl
@[simp] theorem markFaultChange_ports : (markFaultChange s).ports = s.ports := rfl
@[simp] theorem markFaultChange_slots : (markFaultChange s).slots = s.slots := rfl
@[simp] theorem markFaultChange_senders : (markFaultChange s).senders = s.senders := rfl
@[simp] theorem markFaultChange_written : (markFaultChange s).written = s.written := rfl
@[simp] theorem markFaultChange_ackReading : (markFaultChange s).ackReading = s.ackReading := rfl
@[simp] theorem markFaultChange_capture : (markFaultChange s).capture = s.capture := rfl
@[simp] theorem markFaultChange_selector : (markFaultChange s).selector = s.selector := rfl
@[simp] theorem markFaultChange_gov : (markFaultChange s).gov = s.gov := rfl
@[simp] theorem markFaultChange_arms : (markFaultChange s).arms = s.arms := rfl
@[simp] theorem markFaultChange_lift : (markFaultChange s).lift = s.lift := rfl
@[simp] theorem markFaultChange_alloc : (markFaultChange s).alloc = s.alloc := rfl
@[simp] theorem markFaultChange_spray : (markFaultChange s).spray = s.spray := rfl
@[simp] theorem markFaultChange_channels : (markFaultChange s).channels = s.channels := rfl
@[simp] theorem markFaultChange_faults : (markFaultChange s).faults = s.faults := rfl
@[simp] theorem markFaultChange_service : (markFaultChange s).service = s.service := rfl
@[simp] theorem markFaultChange_choices : (markFaultChange s).choices = s.choices := rfl
@[simp] theorem markFaultChange_pending : (markFaultChange s).pending = s.pending := rfl
end

section
variable (s : State) (i : Instr)
@[simp] theorem push_power : (s.push i).power = s.power := rfl
@[simp] theorem push_cutoffLine : (s.push i).cutoffLine = s.cutoffLine := rfl
@[simp] theorem push_ignLine : (s.push i).ignLine = s.ignLine := rfl
@[simp] theorem push_timeUs : (s.push i).timeUs = s.timeUs := rfl
@[simp] theorem push_clock : (s.push i).clock = s.clock := rfl
@[simp] theorem push_cause : (s.push i).cause = s.cause := rfl
@[simp] theorem push_shutdown : (s.push i).shutdown = s.shutdown := rfl
@[simp] theorem push_tables : (s.push i).tables = s.tables := rfl
@[simp] theorem push_nvm : (s.push i).nvm = s.nvm := rfl
@[simp] theorem push_store : (s.push i).store = s.store := rfl
@[simp] theorem push_ports : (s.push i).ports = s.ports := rfl
@[simp] theorem push_slots : (s.push i).slots = s.slots := rfl
@[simp] theorem push_senders : (s.push i).senders = s.senders := rfl
@[simp] theorem push_written : (s.push i).written = s.written := rfl
@[simp] theorem push_ackReading : (s.push i).ackReading = s.ackReading := rfl
@[simp] theorem push_capture : (s.push i).capture = s.capture := rfl
@[simp] theorem push_selector : (s.push i).selector = s.selector := rfl
@[simp] theorem push_gov : (s.push i).gov = s.gov := rfl
@[simp] theorem push_arms : (s.push i).arms = s.arms := rfl
@[simp] theorem push_lift : (s.push i).lift = s.lift := rfl
@[simp] theorem push_alloc : (s.push i).alloc = s.alloc := rfl
@[simp] theorem push_spray : (s.push i).spray = s.spray := rfl
@[simp] theorem push_channels : (s.push i).channels = s.channels := rfl
@[simp] theorem push_faults : (s.push i).faults = s.faults := rfl
@[simp] theorem push_service : (s.push i).service = s.service := rfl
@[simp] theorem push_choices : (s.push i).choices = s.choices := rfl
@[simp] theorem push_ev : (s.push i).ev = s.ev := rfl
end

/-! ## Fields an update sets -/

@[simp] theorem onSlot_slots (s : State) (n f) : (onSlot n f s).slots = s.slots.set n (f s.slots[n]) := rfl
@[simp] theorem onSender_senders (s : State) (i f) : (onSender i f s).senders = s.senders.set i (s.senders[i].map f) := rfl
@[simp] theorem onChan_channels (s : State) (ch f) : (onChan ch f s).channels = s.channels.set ch (f s.channels[ch]) := rfl
@[simp] theorem onCap_capture (s : State) (ch f) : (onCap ch f s).capture = s.capture.set ch (f (s.capture.get ch)) := rfl
@[simp] theorem onGov_gov (s : State) (f) : (onGov f s).gov = f s.gov := rfl
@[simp] theorem onSpray_spray (s : State) (f) : (onSpray f s).spray = f s.spray := rfl
@[simp] theorem onPort_ports (s : State) (q f) : (s.onPort q f).ports = s.ports.set q (f (s.ports.get q)) := rfl
@[simp] theorem putArm_arms (s : State) (a r) : (putArm a r s).arms = s.arms.set a r := rfl
@[simp] theorem push_pending (s : State) (i) : (s.push i).pending = i :: s.pending := rfl

/-! ## Entries of replaced records -/

@[simp] theorem PerArm.get_set_same {α : Type} (p : PerArm α) (a : Arm) (x : α) : (p.set a x).get a = x := by
  cases a <;> rfl
theorem PerArm.get_set_other {α : Type} (p : PerArm α) {a b : Arm} (x : α) (h : b ≠ a) : (p.set a x).get b = p.get b := by
  cases a <;> cases b <;> first | rfl | exact absurd rfl h
@[simp] theorem PerArm.get_map {α β : Type} (f : α → β) (p : PerArm α) (a : Arm) : (p.map f).get a = f (p.get a) := by
  cases a <;> rfl
@[simp] theorem PerArm.get_all {α : Type} (x : α) (a : Arm) : (PerArm.all x).get a = x := by cases a <;> rfl
@[simp] theorem PerPort.get_set_same {α : Type} (p : PerPort α) (q : Port) (x : α) : (p.set q x).get q = x := by
  cases q <;> rfl
theorem PerPort.get_set_other {α : Type} (p : PerPort α) {q r : Port} (x : α) (h : r ≠ q) :
    (p.set q x).get r = p.get r := by
  cases q <;> cases r <;> first | rfl | exact absurd rfl h
@[simp] theorem Capture.get_set_same (c : Capture) (ch : CapCh) (r : CapRun) : (c.set ch r).get ch = r := by
  cases ch <;> rfl
theorem Capture.get_set_other (c : Capture) {ch d : CapCh} (r : CapRun) (h : d ≠ ch) : (c.set ch r).get d = c.get d := by
  cases ch <;> cases d <;> first | rfl | exact absurd rfl h

/-! ## The passing of time -/

@[simp] theorem passTime_power (n : Nat) (s : State) : (passTime n s).power = s.power := rfl
@[simp] theorem passTime_cutoffLine (n : Nat) (s : State) : (passTime n s).cutoffLine = s.cutoffLine := rfl
@[simp] theorem passTime_ignLine (n : Nat) (s : State) : (passTime n s).ignLine = s.ignLine := rfl
@[simp] theorem passTime_cause (n : Nat) (s : State) : (passTime n s).cause = s.cause := rfl
@[simp] theorem passTime_tables (n : Nat) (s : State) : (passTime n s).tables = s.tables := rfl
@[simp] theorem passTime_nvm (n : Nat) (s : State) : (passTime n s).nvm = s.nvm := rfl
@[simp] theorem passTime_ports (n : Nat) (s : State) : (passTime n s).ports = s.ports := rfl
@[simp] theorem passTime_written (n : Nat) (s : State) : (passTime n s).written = s.written := rfl
@[simp] theorem passTime_ackReading (n : Nat) (s : State) : (passTime n s).ackReading = s.ackReading := rfl
@[simp] theorem passTime_selector (n : Nat) (s : State) : (passTime n s).selector = s.selector := rfl
@[simp] theorem passTime_choices (n : Nat) (s : State) : (passTime n s).choices = s.choices := rfl
@[simp] theorem passTime_ev (n : Nat) (s : State) : (passTime n s).ev = s.ev := rfl
@[simp] theorem passTime_pending (n : Nat) (s : State) : (passTime n s).pending = s.pending := rfl

/-- No time passes, or that time passes. -/
theorem advance_eq (n : Nat) (s : State) : advance n s = s ∨ advance n s = passTime n s := by
  cases n with
  | zero => exact Or.inl rfl
  | succ n => exact Or.inr rfl

@[simp] theorem advance_power (n : Nat) (s : State) : (advance n s).power = s.power := by cases n <;> rfl
@[simp] theorem advance_cutoffLine (n : Nat) (s : State) : (advance n s).cutoffLine = s.cutoffLine := by cases n <;> rfl
@[simp] theorem advance_ignLine (n : Nat) (s : State) : (advance n s).ignLine = s.ignLine := by cases n <;> rfl
@[simp] theorem advance_cause (n : Nat) (s : State) : (advance n s).cause = s.cause := by cases n <;> rfl
@[simp] theorem advance_tables (n : Nat) (s : State) : (advance n s).tables = s.tables := by cases n <;> rfl
@[simp] theorem advance_nvm (n : Nat) (s : State) : (advance n s).nvm = s.nvm := by cases n <;> rfl
@[simp] theorem advance_ports (n : Nat) (s : State) : (advance n s).ports = s.ports := by cases n <;> rfl
@[simp] theorem advance_written (n : Nat) (s : State) : (advance n s).written = s.written := by cases n <;> rfl
@[simp] theorem advance_ackReading (n : Nat) (s : State) : (advance n s).ackReading = s.ackReading := by cases n <;> rfl
@[simp] theorem advance_selector (n : Nat) (s : State) : (advance n s).selector = s.selector := by cases n <;> rfl
@[simp] theorem advance_choices (n : Nat) (s : State) : (advance n s).choices = s.choices := by cases n <;> rfl
@[simp] theorem advance_ev (n : Nat) (s : State) : (advance n s).ev = s.ev := by cases n <;> rfl
@[simp] theorem advance_pending (n : Nat) (s : State) : (advance n s).pending = s.pending := by cases n <;> rfl
@[simp] theorem advance_gov_state (n : Nat) (s : State) : (advance n s).gov.state = s.gov.state := by cases n <;> rfl
@[simp] theorem advance_gov_lock (n : Nat) (s : State) : (advance n s).gov.lock = s.gov.lock := by cases n <;> rfl
@[simp] theorem advance_faults_level (n : Nat) (s : State) : (advance n s).faults.level = s.faults.level := by cases n <;> rfl
@[simp] theorem advance_faults_latch (n : Nat) (s : State) : (advance n s).faults.latch = s.faults.latch := by cases n <;> rfl
@[simp] theorem advance_faults_places (n : Nat) (s : State) : (advance n s).faults.places = s.faults.places := by cases n <;> rfl
@[simp] theorem advance_faults_aggregate (n : Nat) (s : State) : (advance n s).faults.aggregate = s.faults.aggregate := by cases n <;> rfl
@[simp] theorem advance_service_session (n : Nat) (s : State) : (advance n s).service.session = s.service.session := by cases n <;> rfl
@[simp] theorem advance_service_replies (n : Nat) (s : State) : (advance n s).service.replies = s.service.replies := by cases n <;> rfl
@[simp] theorem advance_service_restart (n : Nat) (s : State) : (advance n s).service.restart = s.service.restart := by cases n <;> rfl
@[simp] theorem advance_capture_s (n : Nat) (s : State) : (advance n s).capture.s = s.capture.s := by cases n <;> rfl
@[simp] theorem advance_lift_holder (n : Nat) (s : State) : (advance n s).lift.holder = s.lift.holder := by cases n <;> rfl
@[simp] theorem advance_lift_queue (n : Nat) (s : State) : (advance n s).lift.queue = s.lift.queue := by cases n <;> rfl
@[simp] theorem advance_spray_volume (n : Nat) (s : State) : (advance n s).spray.volume = s.spray.volume := by cases n <;> rfl
@[simp] theorem advance_alloc_fav (n : Nat) (s : State) : (advance n s).alloc.fav = s.alloc.fav := by cases n <;> rfl
@[simp] theorem advance_shutdown_hold (n : Nat) (s : State) : (advance n s).shutdown.hold = s.shutdown.hold := by cases n <;> rfl
@[simp] theorem advance_formed (n : Nat) (s : State) : (advance n s).faults.formed = s.faults.formed := by cases n <;> rfl

end Sys2Proof.Machine
end

