-- ==== Sys2Proof/Laws/Opening.lean ====
section
/-! SUPPORT. How a command opens its event: what `happens` and `expires` answer, and what the opened state still reads. -/

namespace Sys2Proof.Machine

/-! ## The forms of an event -/

/-- A command that answers the end of its event on a state completes with whatever holds of that state. -/
theorem Completes.of {c : Instr} {s u : State} {post : State → Prop} (h : exec c s = .next (finish u)) (k : post u) :
    Completes c s post := ⟨u, h, k⟩

/-- What a command completes with may be weakened. -/
theorem Completes.mono {c : Instr} {s : State} {p q : State → Prop} (h : Completes c s p) (k : ∀ u, p u → q u) :
    Completes c s q := by
  obtain ⟨u, e, hu⟩ := h
  exact ⟨u, e, k u hu⟩

theorem event_eq (body : State → State) (s : State) : event body s = finish (body s.opened) := rfl

theorem happens_of {body : State → State} {c : Bool} {s : State} (p : s.power = .running) (h : c = true) :
    happens c body s = .next (finish (body s.opened)) := by
  unfold happens; rw [if_pos ⟨p, h⟩]; rfl

theorem happens_not {body : State → State} {c : Bool} {s : State} (h : s.power ≠ .running ∨ c = false) :
    happens c body s = .next s := by
  unfold happens
  rw [if_neg]
  rintro ⟨p, k⟩
  rcases h with h | h
  · exact h p
  · rw [h] at k; exact Bool.noConfusion k

theorem expires_of {body : State → State} {t : Timer} {s : State} {r : Nat} (p : s.power = .running) (h : t = some r) :
    expires t body s = .next (finish (body (s.openedAt r))) := by
  subst h; unfold expires; rw [if_pos p]; rfl

theorem expires_not {body : State → State} {t : Timer} {s : State} (h : s.power ≠ .running ∨ t = none) :
    expires t body s = .next s := by
  unfold expires
  split
  · next p =>
    rcases h with h | h
    · exact absurd p h
    · subst h; rfl
  · rfl

/-! ## What the opened state still reads -/

theorem opened_role (s : State) (x : Role) : s.opened.role x = s.role x := rfl

theorem advance_slot (n : Nat) (s : State) (k : Fin 48) :
    ((advance n s).slots[k]).status = (s.slots[k]).status ∧ ((advance n s).slots[k]).last = (s.slots[k]).last
    ∧ ((advance n s).slots[k]).clamped = (s.slots[k]).clamped := by
  cases n with
  | zero => exact ⟨rfl, rfl, rfl⟩
  | succ n => simp [advance, passTime]

theorem advance_slotReads (n : Nat) (s : State) (k : Fin 48) : (advance n s).slotReads k = s.slotReads k := by
  obtain ⟨a, b, -⟩ := advance_slot n s k
  unfold State.slotReads slotValue
  rw [a, b, advance_tables]

theorem advance_role (n : Nat) (s : State) (x : Role) : (advance n s).role x = s.role x := by
  unfold State.role
  rw [advance_tables]
  cases s.tables.roles[x.place] with
  | none => rfl
  | some k => simp only [advance_slotReads, (advance_slot n s k).1]

theorem openedAt_role (n : Nat) (s : State) (x : Role) : (s.openedAt n).role x = s.role x := advance_role n s x

theorem openedAt_tables (n : Nat) (s : State) : (s.openedAt n).tables = s.tables := advance_tables n s
theorem openedAt_power (n : Nat) (s : State) : (s.openedAt n).power = s.power := advance_power n s
theorem openedAt_profile (n : Nat) (s : State) : (s.openedAt n).profile = s.profile := by cases n <;> rfl
theorem openedAt_absSpeed (n : Nat) (s : State) : (s.openedAt n).absSpeed = s.absSpeed := by cases n <;> rfl
theorem openedAt_standstill (n : Nat) (s : State) : (s.openedAt n).standstill = s.standstill := by cases n <;> rfl

/-- Time does not touch what an arm's record holds beside its timers. -/
theorem advance_arm (n : Nat) (s : State) (a : Arm) :
    (advance n s).arms.get a = { s.arms.get a with
      motionT := ((advance n s).arms.get a).motionT, floatT := ((advance n s).arms.get a).floatT,
      waitT := ((advance n s).arms.get a).waitT } := by
  cases n <;> cases a <;> rfl

end Sys2Proof.Machine
end

