-- ==== Sys2Proof/Laws/PerInstr.lean ====
section
/-! SUPPORT. The family Shape of LAWS.json, one lemma per command: only a received frame, an unknown request and a
detection time have operands that can be ill-formed. -/

namespace Sys2Proof.Laws

/-- A command that is not well-formed is one of the three whose operands can say what no command says. -/
def Shape.Statement (i : Instr) : Prop :=
  i.wf = false →
    (∃ q f, i = .frameReceived q f ∧ f.wf = false) ∨ (∃ code tag, i = .unknownRequest code tag ∧ isRequestCode code = true)
    ∨ ∃ k n, i = .detectionTimeExpiry k n ∧ k.subjects ≤ n

theorem Shape.frameReceived (port : Port) (frame : Frame) : Shape.Statement (.frameReceived port frame) := fun h => Or.inl ⟨_, _, rfl, h⟩
theorem Shape.frameSent (port : Port) : Shape.Statement (.frameSent port) := fun h => nomatch h
theorem Shape.waitingHolderPlaced (port : Port) : Shape.Statement (.waitingHolderPlaced port) := fun h => nomatch h
theorem Shape.linkLost (port : Port) : Shape.Statement (.linkLost port) := fun h => nomatch h
theorem Shape.linkRestored (port : Port) : Shape.Statement (.linkRestored port) := fun h => nomatch h
theorem Shape.pulseEdge (ch : CapCh) (dirHigh : Bool) (clock : Clock) : Shape.Statement (.pulseEdge ch dirHigh clock) := fun h => nomatch h
theorem Shape.windowTimerExpiry (ch : CapCh) : Shape.Statement (.windowTimerExpiry ch) := fun h => nomatch h
theorem Shape.standstillTimerExpiry (ch : CapCh) : Shape.Statement (.standstillTimerExpiry ch) := fun h => nomatch h
theorem Shape.disagreementTimerExpiry : Shape.Statement .disagreementTimerExpiry := fun h => nomatch h
theorem Shape.lossTimerExpiry (ch : CapCh) : Shape.Statement (.lossTimerExpiry ch) := fun h => nomatch h
theorem Shape.returnTimerExpiry (ch : CapCh) : Shape.Statement (.returnTimerExpiry ch) := fun h => nomatch h
theorem Shape.freshnessTimerExpiry (slot : Fin 48) : Shape.Statement (.freshnessTimerExpiry slot) := fun h => nomatch h
theorem Shape.senderTimerExpiry (place : Fin 24) : Shape.Statement (.senderTimerExpiry place) := fun h => nomatch h
theorem Shape.silentTimeEnd (place : Fin 24) : Shape.Statement (.silentTimeEnd place) := fun h => nomatch h
theorem Shape.governorPeriod : Shape.Statement .governorPeriod := fun h => nomatch h
theorem Shape.overspeedTimeLimit : Shape.Statement .overspeedTimeLimit := fun h => nomatch h
theorem Shape.armPeriod : Shape.Statement .armPeriod := fun h => nomatch h
theorem Shape.motionTimerExpiry (arm : Arm) : Shape.Statement (.motionTimerExpiry arm) := fun h => nomatch h
theorem Shape.floatTimerExpiry (arm : Arm) : Shape.Statement (.floatTimerExpiry arm) := fun h => nomatch h
theorem Shape.waitTimerExpiry (arm : Arm) : Shape.Statement (.waitTimerExpiry arm) := fun h => nomatch h
theorem Shape.allocatorPeriod : Shape.Statement .allocatorPeriod := fun h => nomatch h
theorem Shape.sprayPeriod : Shape.Statement .sprayPeriod := fun h => nomatch h
theorem Shape.lingerEnd : Shape.Statement .lingerEnd := fun h => nomatch h
theorem Shape.intervalTimerExpiry (ch : Fin 6) : Shape.Statement (.intervalTimerExpiry ch) := fun h => nomatch h
theorem Shape.sendCompletion (ch : Fin 6) : Shape.Statement (.sendCompletion ch) := fun h => nomatch h
theorem Shape.cutoffActive : Shape.Statement .cutoffActive := fun h => nomatch h
theorem Shape.cutoffInactive : Shape.Statement .cutoffInactive := fun h => nomatch h
theorem Shape.releaseTimerExpiry : Shape.Statement .releaseTimerExpiry := fun h => nomatch h
theorem Shape.detectionTimeExpiry (kind : Kind) (subject : Nat) : Shape.Statement (.detectionTimeExpiry kind subject) := fun h => Or.inr (Or.inr ⟨_, _, rfl, by simpa [Instr.wf] using h⟩)
theorem Shape.ignitionShutdown : Shape.Statement .ignitionShutdown := fun h => nomatch h
theorem Shape.shutdownTimerExpiry : Shape.Statement .shutdownTimerExpiry := fun h => nomatch h
theorem Shape.sleepEntry : Shape.Statement .sleepEntry := fun h => nomatch h
theorem Shape.wake : Shape.Statement .wake := fun h => nomatch h
theorem Shape.coldStart : Shape.Statement .coldStart := fun h => nomatch h
theorem Shape.serviceRestart : Shape.Statement .serviceRestart := fun h => nomatch h
theorem Shape.inactivityTimerExpiry : Shape.Statement .inactivityTimerExpiry := fun h => nomatch h
theorem Shape.storePageStep (readsBack : Bool) : Shape.Statement (.storePageStep readsBack) := fun h => nomatch h
theorem Shape.storeCompletion : Shape.Statement .storeCompletion := fun h => nomatch h
theorem Shape.recallPageRead : Shape.Statement .recallPageRead := fun h => nomatch h
theorem Shape.recallCompletion : Shape.Statement .recallCompletion := fun h => nomatch h
theorem Shape.unknownRequest (code : Byte) (tag : Option Byte) : Shape.Statement (.unknownRequest code tag) := fun h => Or.inr (Or.inl ⟨_, _, rfl, by simpa [Instr.wf] using h⟩)
theorem Shape.openConfig (tag : Byte) : Shape.Statement (.openConfig tag) := fun h => nomatch h
theorem Shape.closeConfig (tag : Byte) : Shape.Statement (.closeConfig tag) := fun h => nomatch h
theorem Shape.readItem (tag : Byte) (kind : Byte) (index : Byte) (chunk : Byte) : Shape.Statement (.readItem tag kind index chunk) := fun h => nomatch h
theorem Shape.stage (tag : Byte) (offset : Byte) (d0 : Byte) (d1 : Byte) (d2 : Byte) (d3 : Byte) : Shape.Statement (.stage tag offset d0 d1 d2 d3) := fun h => nomatch h
theorem Shape.commitMatch (tag : Byte) (index : Byte) : Shape.Statement (.commitMatch tag index) := fun h => nomatch h
theorem Shape.commitSlot (tag : Byte) (index : Byte) : Shape.Statement (.commitSlot tag index) := fun h => nomatch h
theorem Shape.commitRoleMap (tag : Byte) (index : Byte) : Shape.Statement (.commitRoleMap tag index) := fun h => nomatch h
theorem Shape.commitProfile (tag : Byte) (index : Byte) : Shape.Statement (.commitProfile tag index) := fun h => nomatch h
theorem Shape.commitCurve (tag : Byte) (index : Byte) : Shape.Statement (.commitCurve tag index) := fun h => nomatch h
theorem Shape.commitArmConfig (tag : Byte) (index : Byte) : Shape.Statement (.commitArmConfig tag index) := fun h => nomatch h
theorem Shape.commitTemplate (tag : Byte) (index : Byte) : Shape.Statement (.commitTemplate tag index) := fun h => nomatch h
theorem Shape.commitChannel (tag : Byte) (index : Byte) : Shape.Statement (.commitChannel tag index) := fun h => nomatch h
theorem Shape.commitWindows (tag : Byte) (index : Byte) : Shape.Statement (.commitWindows tag index) := fun h => nomatch h
theorem Shape.commitDriveConfig (tag : Byte) (index : Byte) : Shape.Statement (.commitDriveConfig tag index) := fun h => nomatch h
theorem Shape.commitSprayConfig (tag : Byte) (index : Byte) : Shape.Statement (.commitSprayConfig tag index) := fun h => nomatch h
theorem Shape.commitPortConfig (tag : Byte) (index : Byte) : Shape.Statement (.commitPortConfig tag index) := fun h => nomatch h
theorem Shape.store (tag : Byte) : Shape.Statement (.store tag) := fun h => nomatch h
theorem Shape.recall (tag : Byte) : Shape.Statement (.recall tag) := fun h => nomatch h
theorem Shape.status (tag : Byte) (page : Byte) : Shape.Statement (.status tag page) := fun h => nomatch h
theorem Shape.ackFaults (tag : Byte) : Shape.Statement (.ackFaults tag) := fun h => nomatch h
theorem Shape.channelControlEnable (tag : Byte) (channel : Byte) : Shape.Statement (.channelControlEnable tag channel) := fun h => nomatch h
theorem Shape.channelControlDisable (tag : Byte) (channel : Byte) : Shape.Statement (.channelControlDisable tag channel) := fun h => nomatch h
theorem Shape.channelControlTrigger (tag : Byte) (channel : Byte) : Shape.Statement (.channelControlTrigger tag channel) := fun h => nomatch h
theorem Shape.restart (tag : Byte) : Shape.Statement (.restart tag) := fun h => nomatch h
theorem Shape.clearVolume (tag : Byte) : Shape.Statement (.clearVolume tag) := fun h => nomatch h
theorem Shape.dropSenders (tag : Byte) (slot : Byte) : Shape.Statement (.dropSenders tag slot) := fun h => nomatch h
theorem Shape.powerLoss : Shape.Statement .powerLoss := fun h => nomatch h

end Sys2Proof.Laws
end

