-- ==== Sys2Proof/Laws/Publish.lean ====
section
/-! SUPPORT. What the publication of a level, the closing of banks, the freezing of arms and a report leave: field by
field. -/

namespace Sys2Proof.Machine

/-! ## Reports -/

theorem Reports.kept {s t : State} (h : Reports s t) :
    t.gov = s.gov ∧ t.arms = s.arms ∧ t.lift = s.lift ∧ t.spray = s.spray ∧ t.channels = s.channels ∧ t.ports = s.ports
    ∧ t.choices = s.choices ∧ t.slots = s.slots ∧ t.senders = s.senders ∧ t.capture = s.capture := by
  unfold Reports at h; rw [h]
  exact ⟨rfl, rfl, rfl, rfl, rfl, rfl, rfl, rfl, rfl, rfl⟩
theorem Reports.lift {s t : State} (h : Reports s t) : t.lift = s.lift := h.kept.2.2.1
theorem Reports.spray {s t : State} (h : Reports s t) : t.spray = s.spray := h.kept.2.2.2.1
@[simp] theorem reportEndedIf_gov (b k n) (s : State) : (reportEndedIf b k n s).gov = s.gov :=
  (reportEndedIf_reports b k n s).gov
@[simp] theorem reportEndedIf_arms (b k n) (s : State) : (reportEndedIf b k n s).arms = s.arms :=
  (reportEndedIf_reports b k n s).arms
@[simp] theorem reportEndedIf_lift (b k n) (s : State) : (reportEndedIf b k n s).lift = s.lift :=
  (reportEndedIf_reports b k n s).lift
@[simp] theorem reportEndedIf_spray (b k n) (s : State) : (reportEndedIf b k n s).spray = s.spray :=
  (reportEndedIf_reports b k n s).spray
@[simp] theorem reportEndedIf_tables (b k n) (s : State) : (reportEndedIf b k n s).tables = s.tables :=
  (reportEndedIf_reports b k n s).ends.tables
theorem enterHeld_gov (s : State) : (enterHeld s).gov = s.gov.held := reportEndedIf_gov _ _ _ _
@[simp] theorem enterHeld_arms (s : State) : (enterHeld s).arms = s.arms := reportEndedIf_arms _ _ _ _
@[simp] theorem enterHeld_lift (s : State) : (enterHeld s).lift = s.lift := reportEndedIf_lift _ _ _ _
@[simp] theorem enterHeld_spray (s : State) : (enterHeld s).spray = s.spray := reportEndedIf_spray _ _ _ _
@[simp] theorem enterHeld_tables (s : State) : (enterHeld s).tables = s.tables := reportEndedIf_tables _ _ _ _

/-! ## Arms -/

/-- A field that no freezing or rejoining of one arm changes, no fold of them changes. -/
theorem foldl_field {α β : Type} (g : State → β) (f : State → α → State) (h : ∀ s a, g (f s a) = g s) (l : List α) :
    ∀ s, g (l.foldl f s) = g s := by
  induction l with
  | nil => exact fun _ => rfl
  | cons a l ih => exact fun s => (ih _).trans (h s a)

theorem freezeArm_gov (l) (s : State) (a) : (freezeArm l s a).gov = s.gov := by
  unfold freezeArm; dsimp only; split
  · exact (reportEnded_reports _ _ _).gov
  · rfl
theorem freezeArm_spray (l) (s : State) (a) : (freezeArm l s a).spray = s.spray := by
  unfold freezeArm; dsimp only; split
  · exact (reportEnded_reports _ _ _).spray
  · rfl
theorem freezeCircuit_gov (s : State) : (freezeCircuit s).gov = s.gov := foldl_field State.gov _ (freezeArm_gov _) _ s
theorem freezeCircuit_spray (s : State) : (freezeCircuit s).spray = s.spray :=
  foldl_field State.spray _ (freezeArm_spray _) _ s
theorem rejoinArm_gov (s : State) (a) : (rejoinArm s a).gov = s.gov := by
  unfold rejoinArm; dsimp only; split
  · split <;> rfl
  · rfl
theorem rejoinArm_spray (s : State) (a) : (rejoinArm s a).spray = s.spray := by
  unfold rejoinArm; dsimp only; split
  · split <;> rfl
  · rfl
theorem rejoinFrozen_gov (s : State) : (rejoinFrozen s).gov = s.gov := foldl_field State.gov _ rejoinArm_gov _ s
theorem rejoinFrozen_spray (s : State) : (rejoinFrozen s).spray = s.spray := foldl_field State.spray _ rejoinArm_spray _ s

/-! ## Banks -/

theorem closeBanks_gov (c) (s : State) : (closeBanks c s).gov = s.gov := by
  unfold closeBanks; dsimp only; split <;> rfl
theorem closeBanks_arms (c) (s : State) : (closeBanks c s).arms = s.arms := by
  unfold closeBanks; dsimp only; split <;> rfl
theorem closeBanks_lift (c) (s : State) : (closeBanks c s).lift = s.lift := by
  unfold closeBanks; dsimp only; split <;> rfl
theorem closeBanks_volume (c) (s : State) : (closeBanks c s).spray.volume = s.spray.volume := by
  unfold closeBanks; dsimp only; split <;> rfl
/-- A bank named is closed, and a bank not named is as it was. -/
theorem closeBanks_isOpen (c : PerArm Bool) (s : State) (a : Arm) :
    ((closeBanks c s).spray.banks.get a).isOpen = ((s.spray.banks.get a).isOpen && !c.get a) := by
  unfold closeBanks; dsimp only
  split
  · cases a <;> simp only [PerArm.get, closeBank]
    · cases c.sl <;> simp
    · cases c.sr <;> simp
    · cases c.mb <;> simp
  · next h =>
    simp only [Bool.or_eq_true, Bool.and_eq_true, not_or, not_and, Bool.not_eq_true] at h
    cases a <;> simp only [PerArm.get]
    · cases e : c.sl <;> simp_all
    · cases e : c.sr <;> simp_all
    · cases e : c.mb <;> simp_all

/-! ## Publication -/

/-- Level 3 puts the governor into HELD and sets the restart lock; a lower level leaves the governor (05 R68, R73). -/
theorem publish_gov (l : Fin 4) (s : State) :
    (publish l s).gov = if l = 3 then { s.gov.held with lock := true } else s.gov := by
  have h : (if l = 3 then freezeCircuit (enterHeld { markFaultChange { s with faults.level := l } with gov.lock := true })
      else rejoinFrozen (markFaultChange { s with faults.level := l })).gov
      = if l = 3 then { s.gov.held with lock := true } else s.gov := by
    split
    · exact (freezeCircuit_gov _).trans ((enterHeld_gov _).trans rfl)
    · exact (rejoinFrozen_gov _).trans rfl
  unfold publish; dsimp only; split
  · exact (closeBanks_gov _ _).trans h
  · exact h
theorem publish_volume (l : Fin 4) (s : State) : (publish l s).spray.volume = s.spray.volume := by
  have h : (if l = 3 then freezeCircuit (enterHeld { markFaultChange { s with faults.level := l } with gov.lock := true })
      else rejoinFrozen (markFaultChange { s with faults.level := l })).spray = s.spray := by
    split
    · exact (freezeCircuit_spray _).trans ((enterHeld_spray _).trans rfl)
    · exact (rejoinFrozen_spray _).trans rfl
  unfold publish; dsimp only; split
  · exact (closeBanks_volume _ _).trans (congrArg Spray.volume h)
  · exact congrArg Spray.volume h
theorem formOnce_volume (s : State) : (formOnce s).spray.volume = s.spray.volume := by
  unfold formOnce; split
  · rfl
  · exact publish_volume _ _
theorem formLevel_volume (s : State) : (formLevel s).spray.volume = s.spray.volume :=
  (formOnce_volume _).trans (formOnce_volume s)
/-- A governor held at rest stays so when the level is formed. -/
theorem formOnce_held (s : State) (h : s.gov.held = s.gov) : (formOnce s).gov.held = (formOnce s).gov := by
  unfold formOnce; split
  · exact h
  · rw [publish_gov]; split
    · rfl
    · exact h
theorem formLevel_held (s : State) (h : s.gov.held = s.gov) : (formLevel s).gov.held = (formLevel s).gov :=
  formOnce_held _ (formOnce_held s h)

end Sys2Proof.Machine
end

