-- ==== Sys2Proof/Laws/Reports.lean ====
section
/-! SUPPORT. The fault list: where a search finds, what is a record of the list, and what a report leaves: after a report
of a condition begun the list holds it, after one of its end it does not. -/

namespace Sys2Proof.Machine

/-! ## Searches -/

/-- A place found satisfies the predicate, and no lower one does. -/
theorem vfind_some {α : Type} {n : Nat} {v : Vector α n} {p : α → Bool} {i : Fin n} (h : vfind v p = some i) :
    p v[i] = true ∧ ∀ j : Fin n, j < i → p v[j] = false := by
  unfold vfind at h
  obtain ⟨k, hk, hf⟩ := Option.bind_eq_some_iff.1 h
  unfold fin? at hf
  split at hf
  · next lt =>
    obtain rfl : (⟨k, lt⟩ : Fin n) = i := by simpa using hf
    obtain ⟨l, ht, hlt⟩ := List.findIdx?_eq_some_iff_getElem.1 hk
    refine ⟨by simpa using ht, fun j hj => ?_⟩
    have := hlt j.val hj
    simpa using this
  · cases hf

theorem vfind_none {α : Type} {n : Nat} {v : Vector α n} {p : α → Bool} (h : vfind v p = none) (i : Fin n) :
    p v[i] = false := by
  unfold vfind at h
  rw [Option.bind_eq_none_iff] at h
  cases hk : v.toList.findIdx? p with
  | none =>
    rw [List.findIdx?_eq_none_iff] at hk
    have : v[i] ∈ v.toList := by simp
    simpa using hk _ this
  | some k =>
    have := h k hk
    obtain ⟨l, _, _⟩ := List.findIdx?_eq_some_iff_getElem.1 hk
    unfold fin? at this
    rw [dif_pos (by simpa using l)] at this
    cases this

theorem vfind_eq_some {α : Type} {n : Nat} {v : Vector α n} {p : α → Bool} (i : Fin n) (h : p v[i] = true)
    (k : ∀ j : Fin n, j < i → p v[j] = false) : vfind v p = some i := by
  cases e : vfind v p with
  | none => rw [vfind_none e i] at h; cases h
  | some j =>
    obtain ⟨a, b⟩ := vfind_some e
    rcases lt_trichotomy i j with l | l | l
    · rw [b i l] at h; cases h
    · rw [l]
    · rw [k j l] at a; cases a

theorem vfind_eq_none {α : Type} {n : Nat} {v : Vector α n} {p : α → Bool} (h : ∀ i : Fin n, p v[i] = false) :
    vfind v p = none := by
  cases e : vfind v p with
  | none => rfl
  | some j => have := (vfind_some e).1; rw [h j] at this; cases this

/-! ## The list -/

theorem mem_records {f : Faults} {r : FaultRec} :
    r ∈ f.records ↔ (∃ i : Fin 15, f.places[i] = some r) ∨ f.aggregate = some r := by
  unfold Faults.records
  simp only [List.mem_append, List.mem_filterMap, id_eq, exists_eq_right, Option.mem_toList]
  constructor
  · rintro (h | h)
    · left
      obtain ⟨i, hi, e⟩ := List.getElem_of_mem h
      exact ⟨⟨i, by simpa using hi⟩, by simpa using e⟩
    · right; simpa using h
  · rintro (⟨i, h⟩ | h)
    · left; rw [← h]; simp
    · right; simpa using h

theorem is_iff {k : Kind} {n : Nat} {r : FaultRec} : r.is k n = true ↔ r.kind = k ∧ r.subject = n := by
  unfold FaultRec.is; simp

theorem find_none_iff {f : Faults} {k : Kind} {n : Nat} :
    f.find k n = none ↔ ∀ (i : Fin 15) (r : FaultRec), f.places[i] = some r → ¬(r.kind = k ∧ r.subject = n) := by
  constructor
  · intro h i r e c
    have := vfind_none h i
    rw [e] at this
    simp only [Option.any_some] at this
    rw [is_iff.2 c] at this; cases this
  · intro h
    refine vfind_eq_none fun i => ?_
    cases e : f.places[i] with
    | none => rfl
    | some r =>
      show FaultRec.is k n r = false
      by_contra c
      exact h i r e (is_iff.1 (by simpa using c))

theorem find_some {f : Faults} {k : Kind} {n : Nat} {i : Fin 15} (h : f.find k n = some i) :
    ∃ r, f.places[i] = some r ∧ r.kind = k ∧ r.subject = n := by
  have := (vfind_some h).1
  cases e : f.places[i] with
  | none => rw [e] at this; cases this
  | some r =>
    rw [e] at this
    exact ⟨r, rfl, is_iff.1 this⟩

@[simp] theorem settled_find (f : Faults) (k n k' n') : (f.settled k n).find k' n' = f.find k' n' := rfl
@[simp] theorem settled_mergedHas (f : Faults) (k n k' n') : (f.settled k n).mergedHas k' n' = f.mergedHas k' n' := rfl

theorem settled_of_waits {f : Faults} {k n} (h : f.waits k n = false) : f.settled k n = f := by
  unfold Faults.settled
  have : f.unconfirmed.filter (fun u => !(u.kind == k && u.subject == n)) = f.unconfirmed := by
    rw [List.filter_eq_self]
    intro u hu
    unfold Faults.waits at h
    rw [List.any_eq_false] at h
    have := h u hu
    by_cases c : u.kind = k <;> simp_all
  rw [this]

theorem holds_of_place {f : Faults} {k n} {i : Fin 15} {r : FaultRec} (h : f.places[i] = some r) (c : r.kind = k ∧ r.subject = n)
    (l : r.latched = false) : f.holds k n = true := by
  unfold Faults.holds
  have : f.records.any (fun r => r.is k n && !r.latched) = true :=
    List.any_eq_true.2 ⟨r, mem_records.2 (.inl ⟨i, h⟩), by simp [is_iff.2 c, l]⟩
  rw [this]; rfl

theorem holds_of_merged {f : Faults} {k n} (h : f.mergedHas k n = true) : f.holds k n = true := by
  unfold Faults.holds; rw [h]; simp

@[simp] theorem markFaultChangeIf_faults (b : Bool) (s : State) : (markFaultChangeIf b s).faults = s.faults := by
  unfold markFaultChangeIf; split <;> rfl

theorem mergeReport_holds (k n sev c) (s : State) : (mergeReport k n sev c s).faults.holds k n = true := by
  apply holds_of_merged
  unfold mergeReport
  split
  · simp [markFaultChange, Faults.mergedHas, firstAggregate]
  · next a ha =>
    rw [markFaultChangeIf_faults]
    show ((a.join k n c sev).merged.contains (k, n)) = true
    unfold FaultRec.join
    dsimp only
    split
    · assumption
    · simp

theorem placeRecord_holds (i k n sev) (s : State) : (placeRecord i k n sev s).faults.holds k n = true :=
  holds_of_place (i := i) (r := newRecord s k n sev) (by simp [placeRecord, markFaultChange]) ⟨rfl, rfl⟩ rfl

/-- A reported condition is held (10 R156 to R158). -/
theorem reportBegun_holds (k : Kind) (n : Nat) (sev : Fin 4) (s : State) : (reportBegun k n sev s).faults.holds k n = true := by
  unfold reportBegun
  dsimp only
  split
  · next i hi =>
    obtain ⟨r, e, c⟩ := find_some hi
    have e' : (s.faults.settled k n).places[i] = some r := e
    rw [e']
    dsimp only
    refine holds_of_place (i := i) (r := r.takeReport (!s.faults.waits k n) sev) ?_ c rfl
    rw [markFaultChangeIf_faults]; simp
  · split
    · exact mergeReport_holds ..
    · unfold enterRecord
      split
      · exact placeRecord_holds ..
      · split
        · exact placeRecord_holds ..
        · exact mergeReport_holds ..

end Sys2Proof.Machine
end

