-- ==== Sys2Proof/Laws/Service.lean ====
section
/-! SUPPORT. What a request comes to when the service unit is ready: one lemma for the reply, one for the request. -/

namespace Sys2Proof.Machine

theorem State.taken_eq (s : State) : restartInactivity s.opened = s.taken := by
  obtain ⟨⟩ := s
  rename_i service _ _ _
  obtain ⟨session, t, stage, buf, replies, deferred, mark⟩ := service
  cases session <;> rfl

/-- A reply made where none waits and a place is free enters the queue at once. -/
theorem makeReply_ready (r : Reply) (s : State) (new : r.offered = none) (h : s.service.replies = []) (on : s.ports.c.on = true)
    (free : s.ports.c.full = false) :
    makeReply r s
      = { s.onPort .c fun p => p.enter ⟨s.tables.ports.repFmt, s.tables.ports.repId, r.data⟩ .service with
          service.restart := if r.isRestart then .queued s.ports.c.nextOrder else s.service.restart } := by
  obtain ⟨⟩ := s
  rename_i service _ _ _
  obtain ⟨session, t, stage, buf, replies, deferred, mark⟩ := service
  simp only at h on free
  subst h
  simp only [makeReply, offerReply, placeReply, List.nil_append, List.isEmpty_cons, List.isEmpty_nil, Bool.not_true,
    Bool.false_eq_true, if_false, on, free, replyFrame, replyId, new, Option.getD_none]
  rfl

/-- An answer that finds no reply waiting and a place free. -/
theorem answer_ready (code tag : Byte) (st : Status) (data : List Byte) (s : State) (h : s.service.replies = [])
    (on : s.ports.c.on = true) (free : s.ports.c.full = false) :
    answer code tag st data s = replied code tag st data s := by
  unfold answer
  rw [makeReply_ready _ _ rfl h on free]
  rfl

/-- A request the service unit is ready for is judged and carried out, or answered with the status it fails with. -/
theorem request_ready (code : Byte) (rest : List Byte) (s : State) (h : ServiceReady s) :
    request (code :: rest) s = .next (finish
      (match judgeRequest code (code :: rest) s.taken with
       | some st => answer code (rest.headD 0) st [] s.taken
       | none => carryOutRequest code (rest.headD 0) (code :: rest) s.taken)) := by
  obtain ⟨run, on, free, rep, mark, op⟩ := h
  have e : restartInactivity { s with ev := .none } = s.taken := State.taken_eq s
  have d : discards s.taken = false := by
    have h1 : s.taken.service.replies = [] := rep
    have h2 : s.taken.service.restart = .clear := mark
    unfold discards; rw [h1, h2]; rfl
  unfold request happens
  rw [if_pos ⟨run, on⟩]
  unfold event serviceRequest
  simp only [e, d]
  rfl

/-- With no operation in flight a request whose code is known and long enough is judged by its session alone. -/
theorem judgeRequest_idle (code : Byte) (data : List Byte) (s : State) (n : Nat) (l : leastLength code.toNat = some n)
    (long : n ≤ data.length) (op : s.store.op = .idle) :
    judgeRequest code data s
      = if needsSession code.toNat && !s.service.session then some .notOpen else none := by
  have h : ¬ data.length < n := by omega
  have f : inFlight s = false := by unfold inFlight; rw [op]; rfl
  unfold judgeRequest
  rw [l]
  simp only [if_neg h, f, Bool.false_and, Bool.false_eq_true, if_false]

end Sys2Proof.Machine
end

