-- ==== Sys2Proof/Laws/Total.lean ====
section
/-! SUPPORT. A well-formed command never stops: `exec` answers a next state in every state. -/

namespace Sys2Proof.Machine

/-- A command answers a next state. -/
abbrev Runs (a : Answer) : Prop := ∃ t, a = .next t

theorem happens_runs (c : Bool) (body : State → State) (s : State) : Runs (happens c body s) := by
  unfold happens; split <;> exact ⟨_, rfl⟩

theorem expires_runs (t : Timer) (body : State → State) (s : State) : Runs (expires t body s) := by
  unfold expires; split
  · split <;> exact ⟨_, rfl⟩
  · exact ⟨_, rfl⟩

theorem operationEvent_runs (t : Timer) (body : State → State) (s : State) : Runs (operationEvent t body s) := by
  unfold operationEvent; split
  · split <;> exact ⟨_, rfl⟩
  · exact ⟨_, rfl⟩

/-- Every well-formed command answers a next state, whatever the state. -/
theorem exec_runs (c : Instr) (s : State) (h : c.wf = true) : Runs (exec c s) := by
  cases c
  case frameReceived q f =>
    show Runs (execFrameReceived q f s)
    unfold execFrameReceived
    rw [show f.wf = true from h]
    exact happens_runs _ _ _
  case frameSent q => unfold exec execFrameSent; dsimp only; split <;> (try split) <;> exact ⟨_, rfl⟩
  case linkLost q => unfold exec execLinkLost; dsimp only; split <;> exact ⟨_, rfl⟩
  case cutoffActive => unfold exec execCutoffActive; dsimp only; split <;> (try split) <;> exact ⟨_, rfl⟩
  case cutoffInactive => unfold exec execCutoffInactive; dsimp only; split <;> (try split) <;> exact ⟨_, rfl⟩
  case ignitionShutdown => unfold exec execIgnitionShutdown; dsimp only; split <;> (try split) <;> exact ⟨_, rfl⟩
  case shutdownTimerExpiry => unfold exec execShutdownTimerExpiry; dsimp only; split <;> (try split) <;> exact ⟨_, rfl⟩
  case wake => unfold exec execWake; dsimp only; split <;> exact ⟨_, rfl⟩
  case powerLoss => unfold exec execPowerLoss; dsimp only; split <;> exact ⟨_, rfl⟩
  case pulseEdge ch d k =>
    unfold exec execPulseEdge; dsimp only
    split
    · split <;> (try split) <;> exact ⟨_, rfl⟩
    · exact ⟨_, rfl⟩
  case storePageStep b =>
    unfold exec execStorePageStep; dsimp only; split
    · exact operationEvent_runs _ _ _
    · exact ⟨_, rfl⟩
  case storeCompletion =>
    unfold exec execStoreCompletion; dsimp only; split
    · split
      · exact operationEvent_runs _ _ _
      · exact ⟨_, rfl⟩
    · exact ⟨_, rfl⟩
  case recallPageRead =>
    unfold exec execRecallPageRead; dsimp only; split
    · exact operationEvent_runs _ _ _
    · exact ⟨_, rfl⟩
  case recallCompletion =>
    unfold exec execRecallCompletion; dsimp only; split
    · split
      · exact ⟨_, rfl⟩
      · exact operationEvent_runs _ _ _
    · exact ⟨_, rfl⟩
  all_goals first | exact ⟨_, rfl⟩ | exact happens_runs _ _ _ | exact expires_runs _ _ _

end Sys2Proof.Machine
end

