-- ==== Sys2Proof/Tests/Slice0.lean ====
section
/-! SUPPORT. Tests: the well-formedness checks, the manual's worked examples, and for every obligation with hypotheses
states and operands that meet them, clause by clause, at the boundary values of their ranges. -/

namespace Sys2Proof.Tests

open Sys2Proof Sys2Proof.Machine

set_option Elab.async false

/-! ## Well-formedness -/

def plainFrame : Frame := ⟨.std, 0x1F0, [1, 2, 3]⟩
theorem test_wf_frame : (Instr.frameReceived .c ⟨.std, 0x7FF, List.replicate 8 0⟩).wf = true := by decide
theorem test_wf_frame_too_long : (Instr.frameReceived .c ⟨.std, 0x7FF, List.replicate 9 0⟩).wf = false := by decide
theorem test_wf_standard_identifier : (Instr.frameReceived .b ⟨.std, 0x800, []⟩).wf = false := by decide
theorem test_wf_extended_identifier : (Instr.frameReceived .b ⟨.ext, 0x1FFFFFFF, []⟩).wf = true := by decide
theorem test_wf_unknown_request : (Instr.unknownRequest 0x0E none).wf = true ∧ (Instr.unknownRequest 0x0D none).wf = false
    ∧ (Instr.unknownRequest 0x00 none).wf = true ∧ (Instr.unknownRequest 0x01 (some 0)).wf = false := by decide
theorem test_wf_detection_subject : (Instr.detectionTimeExpiry .armStuck 2).wf = true
    ∧ (Instr.detectionTimeExpiry .armStuck 3).wf = false ∧ (Instr.detectionTimeExpiry .signalStale 48).wf = false
    ∧ (Instr.detectionTimeExpiry .portLost 2).wf = false := by decide
theorem test_no_word_spells_a_command : decodeTableWord 8 0 = none ∧ decodeTableWord 64 7 = none := by decide

/-! ## Small states -/

/-- The state a command leaves; reset where it stops. -/
def after (c : Instr) (s : State) : State :=
  match exec c s with
  | .next t => t
  | .fault _ | .refused _ => State.reset

/-- Whether a command answers a next state. -/
def goes (c : Instr) (s : State) : Bool :=
  match exec c s with
  | .next _ => true
  | .fault _ | .refused _ => false

/-- The part after reset with an empty fault list, at level 0. -/
def calm : State := { State.reset with faults := Faults.empty }

/-- The slot the tests bind a role to. -/
def slotOf (r : Role) : Fin 48 := ⟨r.place.val, Nat.lt_trans r.place.isLt (by decide)⟩

/-- Bind a role to its own slot, fresh with a value. -/
def reads (r : Role) (v : Int) (s : State) : State :=
  let fresh : SlotRun := { status := .fresh, last := v, clamped := false, evenSeen := false, oddSeen := false, timer := none }
  { s with tables := { s.tables with roles := s.tables.roles.set r.place (some (slotOf r)) }
           slots := s.slots.set (slotOf r) fresh }

/-- Replace profile 0. -/
def withProfile (p : Profile) (s : State) : State :=
  { s with tables := { s.tables with profiles := s.tables.profiles.set 0 p } }

/-- Replace curve 0. -/
def withCurve (c : Curve) (s : State) : State :=
  { s with tables := { s.tables with curves := s.tables.curves.set 0 c } }

/-- Put a match entry at index 0. -/
def withEntry (e : MatchEntry) (s : State) : State :=
  { s with tables := { s.tables with entries := s.tables.entries.set 0 e } }

/-- Configure a slot. -/
def withSlot (n : Fin 48) (c : SlotCfg) (s : State) : State :=
  { s with tables := { s.tables with slots := s.tables.slots.set n c } }

/-- Put a run-time slot record. -/
def putSlot (n : Fin 48) (r : SlotRun) (s : State) : State := { s with slots := s.slots.set n r }

/-- Put a sender record. -/
def putSender (i : Fin 24) (r : SenderRec) (s : State) : State := { s with senders := s.senders.set i (some r) }

/-- Fit an arm and put it into a state. -/
def putArmIn (a : Arm) (x : ArmState) (s : State) : State :=
  { s with tables := { s.tables with arms := { s.tables.arms with
             arms := s.tables.arms.arms.set a { ArmCfg.factory with fitted := true } } }
           arms := s.arms.set a { ArmRec.restarted { ArmCfg.factory with fitted := true } with state := x } }

/-- Put a fault record into a general place. -/
def putFault (i : Fin 15) (k : Kind) (n : Nat) (sev : Fin 4) (s : State) : State :=
  let r : FaultRec := { kind := k, subject := n, severity := sev, ack := k.ack, latched := false, count := 1
                        firstSeen := 0, order := i.val + 1, announced := false, merged := [] }
  { s with faults := { s.faults with places := s.faults.places.set i (some r), nextOrder := 99 } }

/-! ## Worked examples of the manual -/

/-- 01, "ordering in the B-port queue": the order in which five records leave. -/
def orderExample : PortUnit :=
  let std (n : Nat) : Frame := ⟨.std, BitVec.ofNat 29 n, []⟩
  let ext (n : Nat) : Frame := ⟨.ext, BitVec.ofNat 29 n, []⟩
  ((((PortUnit.fresh.enter (std 0x210) (.channel 2)).enter (ext 0x0628FFFF) .forward).enter (std 0x18A) (.channel 0)).enter
    (ext 0x06281234) .forward).enter (std 0x18A) .forward
theorem test_queue_order :
    let sentOnce (p : PortUnit) : PortUnit := (p.removeOffered (p.offered.getD 0)).offerLink
    let p1 := sentOnce orderExample
    let p2 := sentOnce p1
    let p3 := sentOnce p2
    let p4 := sentOnce p3
    [orderExample, p1, p2, p3, p4].map (·.offered) = [some 1, some 3, some 5, some 4, some 2] := by decide +kernel

/-- 01, "two picks from one frame". -/
theorem test_pick_results :
    let data : List Byte := [0x40, 0x38, 0x70, 0xE7, 0x00, 0x01]
    let p0 : Pick := { bitPos := 0, width := 16, signed := false, mul := 1, div := 8, off := 0, role := .value, slot := 0 }
    let p1 : Pick := { bitPos := 20, width := 12, signed := true, mul := 5, div := 4, off := 0, role := .value, slot := 1 }
    p0.result data = some 1800 ∧ p1.result data = some (-491) ∧ p0.result (data.take 3) = some 1800
    ∧ p1.result (data.take 3) = none := by decide +kernel

/-- 01, "raising the operator's engine speed request". -/
theorem test_rewrite_place :
    let p : RewritePlace := { bitPos := 32, width := 16, source := .engineRequest, combine := .max }
    let s (n : Nat) : State := { calm with alloc := { calm.alloc with request := n } }
    let frame (lo hi : Byte) : List Byte := [0, 0, 0, 0, lo, hi, 7, 7]
    p.fill (s 0) (frame 0xDC 0x05) = frame 0xDC 0x05 ∧ p.fill (s 2200) (frame 0xDC 0x05) = frame 0x98 0x08
    ∧ p.fill (s 2200) (frame 0x60 0x09) = frame 0x60 0x09 := by decide +kernel

/-- The speed curve of 04 and 05. -/
def speedCurve : Curve := { step := 125, ys := #v[0, 300, 700, 1200, 1800, 2500, 3300, 4200, 5200] }
theorem test_curve_values :
    [0, 40, 500, 560, 999, 1000, 1400].map speedCurve.eval = [0, 96, 1800, 2136, 5192, 5200, 5200]
    ∧ ({ step := 500, ys := #v[0, 0, 0, 140, 110, 0, 0, 0, 0] } : Curve).eval 1730 = 127 := by decide +kernel

/-- Profile 1 of 05's first worked example. -/
def sweeping : Profile :=
  { Profile.factory with kind := .work, ceiling := 2500, cap := 1000, aUp := 20, aDn := 25 }

/-- The machine of 05's first worked example, in FORWARD with `v` and `i`. -/
def travelling (v : Nat) (i speed pedal : Int) (p : Profile) : State :=
  let s := reads .pedal pedal (reads .park 0 (reads .engineSpeed 1800 (withCurve speedCurve (withProfile p calm))))
  { s with gov := { s.gov with state := .forward, dir := 1, v := v, i := i }
           capture := { s.capture with s := speed } }

/-- 05, "the sweeping period". -/
theorem test_governor_period :
    let t := after .governorPeriod (travelling 1760 12300 1760 500 sweeping)
    t.gov.v = 1780 ∧ t.gov.i = 12500 ∧ t.gov.p = 250 ∧ t.gov.mark = .none := by decide +kernel

/-- 05, period 4 of the same example: the pedal released. -/
theorem test_governor_release :
    let t := after .governorPeriod (travelling 1800 12880 1800 30 sweeping)
    t.gov.v = 1775 ∧ t.gov.i = 12630 ∧ t.gov.p = 243 := by decide +kernel

/-- 05, "the integral at the stroke cap". -/
theorem test_governor_cap :
    let t := after .governorPeriod (travelling 1800 20000 1700 500 { sweeping with cap := 260 })
    let u := after .governorPeriod { t with capture := { t.capture with s := 1700 } }
    t.gov.i = 21000 ∧ t.gov.p = 260 ∧ t.gov.mark = .high ∧ u.gov.i = 21000 ∧ u.gov.p = 260 := by decide +kernel

/-- 03, "one channel through both modes", from the edge at 20,000 on. -/
theorem test_capture_modes :
    let fit : State := { calm with tables := { calm.tables with drive := { calm.tables.drive with capA := ⟨true, 2500⟩ } } }
    let e (n : Nat) : State → State := after (.pulseEdge .a true (BitVec.ofNat 32 n))
    let s1 := e 12500 (e 0 fit)
    let s2 := e 20000 s1
    let s3 := e 20980 s2
    s1.capture.a.speed = 200 ∧ s2.capture.a.speed = 333 ∧ s3.capture.a.speed = 2551 ∧ s3.capture.a.mode = .count
    ∧ s3.capture.a.windowT = some 20000 ∧ s3.capture.s = 2551 := by decide +kernel

/-! ### Arms, flow and spray (06, 07, 08) -/

/-- Three fitted arms under a WORK profile, with the requests of all, an engine at `n` rpm and an available flow. -/
def sweeper (n : Int) (fav : Nat) (p : Profile) : State :=
  let s := [Arm.sl, .sr, .mb].foldl (fun s a => reads (.armRequest a) 1 (putArmIn a .working s))
    (reads .engineSpeed n (withProfile p calm))
  { s with alloc := { s.alloc with fav := fav } }

/-- Profile of 06's and 08's examples: WORK, down-pressure 400, doses 40, 40, 60. -/
def working : Profile :=
  { Profile.factory with kind := .work, arms := ⟨⟨0, 400, 40⟩, ⟨0, 400, 40⟩, ⟨0, 400, 60⟩⟩ }

/-- 06, "gutter brushes up in reverse", the period at 316 ms and the end of SL's motion. -/
theorem test_lift_in_reverse :
    let s := sweeper 1800 840 working
    let s := { s with gov := { s.gov with state := .reverse, dir := -1 } }
    let t := after .armPeriod s
    let u := after .armPeriod (reads (.armPosition .sl) 45 t)
    t.arms.sl.state = .lifting ∧ t.arms.sl.valve = -700 ∧ t.arms.sl.motionT = some 6000000 ∧ t.arms.sr.state = .waitUp
    ∧ t.arms.mb.state = .working ∧ t.arms.mb.pressure = 400 ∧ t.arms.sl.pressure = 0 ∧ t.lift.holder = some .sl
    ∧ t.lift.queue = [.sr] ∧ u.arms.sl.state = .stowed ∧ u.arms.sl.valve = 0 ∧ u.arms.sr.state = .lifting
    ∧ u.lift.holder = some .sr ∧ u.lift.queue = [] := by decide +kernel

/-- 06, "cut-off during a lowering": frozen in order, rejoined UP first, the third arm left without a place. -/
theorem test_cutoff_during_lowering :
    let s := sweeper 1800 840 working
    let w (x : ArmState) (o : WaitOrigin) : ArmRec := { ArmRec.restarted { ArmCfg.factory with fitted := true } with state := x, origin := o }
    let s := reads (.armRequest .sl) 0 { s with
      arms := ⟨w .waitUp .working, w .waitDown .stowed, { w .lowering .midway with motionT := some 500, valve := 600 }⟩
      lift := { s.lift with holder := some .mb, queue := [.sl, .sr] } }
    let f := after .cutoffActive s
    let r := after .cutoffInactive f
    let g := after .armPeriod r
    let h := after .armPeriod g
    (f.arms.sl.frozenMotion, f.arms.sl.origin, f.arms.sl.frozenRank) = (.up, .working, 2)
    ∧ (f.arms.sr.frozenMotion, f.arms.sr.origin, f.arms.sr.frozenRank) = (.down, .stowed, 3)
    ∧ (f.arms.mb.frozenMotion, f.arms.mb.origin, f.arms.mb.frozenRank) = (.down, .midway, 1) ∧ f.arms.mb.valve = 0
    ∧ f.faults.level = 3 ∧ r.faults.level = 0 ∧ r.lift.queue = [.sl, .mb] ∧ r.arms.sr.state = .frozen
    ∧ g.arms.sl.state = .lifting ∧ g.lift.queue = [.mb] ∧ g.arms.sr.state = .frozen
    ∧ h.lift.queue = [.mb, .sr] ∧ h.arms.sr.origin = .stowed := by decide +kernel

/-- The machine of 07's first example: brush speeds as given, `holder` in LOWERING. -/
def flowing (n : Int) (holder : Option Arm) (rpm : Nat) : State :=
  let p := { working with raiseAllowed := true, requestMax := 2200 }
  let s := sweeper n 0 p
  let s := if holder = some .mb then putArmIn .mb .lowering s else s
  let cfg (dm : Nat) : ArmCfg := { ArmCfg.factory with fitted := true, dm := dm }
  { s with arms := ⟨{ s.arms.sl with rpm := 110 }, { s.arms.sr with rpm := 110 }, { s.arms.mb with rpm := rpm }⟩
           lift := { s.lift with holder := holder }
           tables := { s.tables with arms := { s.tables.arms with arms := ⟨cfg 2400, cfg 2400, cfg 3600⟩ } } }

/-- 07, "flow runs short while the main broom lowers", periods 1 and 4. -/
theorem test_flow_runs_short :
    let t := after .allocatorPeriod (flowing 1800 (some .mb) 0)
    let u := after .allocatorPeriod (flowing 2200 none 90)
    t.alloc.fav = 840 ∧ t.alloc.request = 2200 ∧ (t.arms.map (·.scaled)) = ⟨79, 79, 0⟩
    ∧ u.alloc.fav = 1026 ∧ u.alloc.request = 2200 ∧ (u.arms.map (·.scaled)) = ⟨79, 79, 64⟩ := by decide +kernel

/-- 07, "the trim step". -/
theorem test_flow_trim :
    let s := sweeper 1796 0 working
    let cfg : ArmCfg := { ArmCfg.factory with fitted := true, dm := 599 }
    let t := after .allocatorPeriod { s with
      arms := s.arms.map fun r => { r with rpm := 601 }
      tables := { s.tables with arms := { s.tables.arms with arms := .all cfg }, drive := { s.tables.drive with dimp := 600 } } }
    t.alloc.fav = 1796 ∧ (t.arms.map (·.scaled)) = ⟨599, 599, 599⟩ := by decide +kernel

/-- The machine of 08's examples. -/
def spraying (tank : Int) (p : Spray) : State :=
  let s := reads .spraySwitch 1 (reads .tankLevel tank (sweeper 1800 840 working))
  { s with capture := { s.capture with s := 1760 }, spray := p }

/-- A doser in the middle of the shift. -/
def midShift : Spray := { Spray.restarted 1000000 with dry := false, firstPending := false, above := true }

/-- 08, "dosing at sweeping pace", and the closing of SR's bank at its arm event. -/
theorem test_dosing :
    let t := after .sprayPeriod (spraying 600 midShift)
    let u := after .armPeriod (reads (.armRequest .sr) 0 t)
    t.spray.q = 245 ∧ t.spray.duty = 612 ∧ t.spray.volume = 1012250 ∧ t.spray.mask = 7
    ∧ u.arms.sr.state.turning = false ∧ u.spray.mask = 5 ∧ u.spray.q = 175 ∧ u.spray.duty = 437 := by decide +kernel

/-- 08, "the tank runs low, runs dry and is refilled". -/
theorem test_tank :
    let a := after .sprayPeriod (spraying 149 midShift)
    let b := after .sprayPeriod (reads .tankLevel 29 a)
    let c := after .sprayPeriod (reads .tankLevel 200 b)
    let d := after .sprayPeriod (reads .tankLevel 260 c)
    a.spray.tankLow = true ∧ a.spray.mask = 7 ∧ a.faults.holds .tankLow 0 = true ∧ b.spray.dry = true ∧ b.spray.mask = 0
    ∧ b.faults.holds .sprayDry 0 = true ∧ c.spray.dry = true ∧ d.spray.dry = false ∧ d.spray.mask = 7 ∧ d.spray.duty = 612
    ∧ d.faults.records = [] := by decide +kernel

/-! ### Channels and templates (09) -/

/-- Template 4 of 09's first example. -/
def driveTemplate : Template :=
  { port := .b, fmt := .std, id := 0x2A0, len := 5, bytes := #v[0, 0, 0, 0, 1, 0, 0, 0]
    places := [⟨0, 12, true, .pumpStroke, 1, 1, 0⟩, ⟨12, 12, false, .motorStroke, 1, 1, 0⟩, ⟨24, 8, true, .cmdSpeed, 36, 1000, 0⟩] }

/-- 09, "a drive command frame", its four builds. -/
theorem test_drive_frame :
    let s (p d : Int) (v m : Nat) : State := { calm with gov := { calm.gov with p := p, dir := d, v := v, motor := m } }
    let bytes (s : State) : List Byte := (buildFrame s driveTemplate).data
    bytes (s 250 1 1780 1000) = [0xFA, 0x80, 0x3E, 0x40, 0x01] ∧ bytes (s (-250) (-1) 900 1000) = [0x06, 0x8F, 0x3E, 0xE0, 0x01]
    ∧ bytes (s 600 1 8000 500) = [0x58, 0x42, 0x1F, 0x7F, 0x01]
    ∧ bytes { s 250 0 0 1000 with faults := { Faults.empty with level := 3 } } = [0x00, 0x80, 0x3E, 0x00, 0x01] := by decide +kernel

/-- 09, "a sequence against a busy body segment": three templates on the B-port with 11 records already queued. -/
def busySegment : State :=
  let tpl (n : Nat) : Template := { Template.factory with port := .b, id := BitVec.ofNat 29 n }
  let cfg : ChannelCfg := { ChannelCfg.factory with source := .governor, sequence := true, reload := 3, runStart := 4,
                                                    runLen := 3, chain := some 2 }
  let wide : Window := { fmt := .std, lo := 0, hi := 0x7FF }
  let q : PortUnit := (List.range 11).foldl (fun p _ => p.enter ⟨.std, 0x300, []⟩ .forward) PortUnit.fresh
  { calm with
    tables := { calm.tables with
      templates := ((calm.tables.templates.set 4 (tpl 0x10)).set 5 (tpl 0x310)).set 6 (tpl 0x311)
      channels := calm.tables.channels.set 1 cfg
      windows := { calm.tables.windows with b := ⟨wide, Window.factory⟩ } }
    channels := calm.channels.set 1 { ChanRun.restarted cfg with enable := true }
    ports := { calm.ports with b := q } }
theorem test_sequence :
    let look (s : State) := (s.channels[1].state, s.channels[1].position, s.channels[1].out, s.ports.b.queue.length)
    let a := after .governorPeriod busySegment
    let b := after (.frameSent .b) a
    let c := after (.frameSent .b) b
    let d := after .governorPeriod c
    look a = (.stalled, 5, 1, 12) ∧ look b = (.stalled, 6, 2, 12) ∧ b.ports.b.offeredRecord.map (·.frame.id) = some 0x10
    ∧ look c = (.sending, 4, 2, 12) ∧ d.channels[1].pending = true ∧ look d = (.sending, 4, 2, 12) := by decide +kernel

/-! ### Faults, service and store (10 to 12) -/

/-- 10, "a crowded list", up to the aggregate. -/
def crowded : State :=
  let s := reportBegun .speedChannelLost 1 1 (reportBegun .tankLow 0 0 calm)
  finish ((List.range 13).foldl (fun s n => reportBegun .signalStale (20 + n) 2 s) s)
/-- The aggregate's severity, count, merged set and state. -/
def aggregateOf (s : State) : Option (Fin 4 × Nat × List (Kind × Nat) × Bool) :=
  s.faults.aggregate.map fun r => (r.severity, r.count, r.merged, r.latched)
def crowdedMerged : State :=
  event (fun s => reportEnded .armStuck 2 (reportBegun .armStuck 2 2 s))
    (event (reportBegun .signalStale 33 3) (event (reportBegun .overspeed 0 2) (event (reportBegun .sprayDry 0 0) crowded)))
def crowdedCut : State :=
  event acknowledge (event (reportEnded .overspeed 0) (event (reportEnded .sprayDry 0) (after .cutoffActive crowdedMerged)))
def crowdedReleased : State := after .cutoffInactive crowdedCut
theorem test_crowded_evictions :
    (crowded.faults.level, crowdedMerged.faults.level) = (2, 3)
    ∧ ([(Kind.tankLow, 0), (.speedChannelLost, 1), (.sprayDry, 0), (.overspeed, 0)].map fun c =>
        (crowdedMerged.faults.find c.1 c.2).isSome) = [false, false, false, true]
    ∧ aggregateOf crowdedMerged = some (2, 1, [], true) := by decide +kernel
theorem test_crowded_cutoff :
    aggregateOf crowdedCut = some (3, 2, [(.cutoff, 0)], false) ∧ crowdedCut.faults.find .overspeed 0 = none
    ∧ crowdedCut.faults.level = 3 := by decide +kernel
theorem test_crowded_release :
    aggregateOf crowdedReleased = some (3, 2, [], true) ∧ crowdedReleased.faults.level = 3 := by decide +kernel
theorem test_crowded_acknowledged :
    let s := event acknowledge (event (reportEnded .signalStale 33) crowdedReleased)
    (s.faults.aggregate, s.faults.level) = (none, 2) := by decide +kernel

/-- The data of the last reply queued on the C-port. -/
def lastReply (s : State) : Option (List Byte) := s.ports.c.queue.getLast?.map (·.frame.data)

/-- Run a command and let the link send what it queued. -/
def tool (s : State) (c : Instr) : State := after c (after (.frameSent .c) s)

/-- 11, "loading a speed curve". -/
theorem test_loading_a_curve :
    let s := reads .park 1 calm
    let staged := [Instr.openConfig 1, .stage 2 0 0x7D 0 0 0, .stage 3 4 0x2C 1 0xBC 2, .stage 4 8 0xB0 4 8 7,
                   .stage 5 12 0xC4 9 0xE4 0x0C, .stage 6 16 0x68 0x10 0x50 0x54].foldl tool s
    let bad := tool staged (.commitCurve 7 3)
    let good := tool (tool bad (.stage 8 16 0x68 0x10 0x50 0x14)) (.commitCurve 9 3)
    let r0 := tool good (.readItem 10 0x05 3 0)
    let r3 := tool r0 (.readItem 11 0x05 3 3)
    let r4 := tool r3 (.readItem 12 0x05 3 4)
    staged.service.session = true ∧ bad.tables = staged.tables ∧ good.tables.curves[3] = speedCurve
    ∧ (lastReply r0).map (·.drop 3) = some [0x7D, 0, 0, 0, 0x2C] ∧ (lastReply r3).map (·.drop 3) = some [0x0C, 0x68, 0x10, 0x50, 0x14]
    ∧ lastReply r4 = (lastReply bad).map (fun b => [b.getD 0 0 - 2, 12] ++ b.drop 2)
    ∧ (tool r4 (.closeConfig 13)).service.session = false := by decide +kernel

/-- A store of a changed profile, a recall of it, and a cold start from it. -/
theorem test_store_and_recall :
    let s := reads .park 1 (withProfile sweeping calm)
    let a := tool (tool s (.openConfig 1)) (.store 2)
    let b := after .storeCompletion (after (.storePageStep true) (after (.storePageStep true) a))
    let cold := after .coldStart (after .powerLoss b)
    let torn := after .coldStart (after .powerLoss a)
    a.nvm.header = .blank ∧ b.store.op = .idle ∧ b.store.imageValid = true ∧ cold.tables.profiles[0] = sweeping
    ∧ cold.faults.records = [] ∧ torn.tables = Tables.factory ∧ torn.faults.level = 3 := by decide +kernel

/-! ## Witnesses: states and operands that meet the hypotheses of the obligations -/

/-! ### Steps and invariants -/

/-- The marks, the level and the latch with which the clauses of EventEndFormsLevel are met. -/
theorem test_met_EventEndFormsLevel :
    calm.power = .running ∧ (finish { calm with faults := { calm.faults with latch := true } }).faults.latch = true
    ∧ (finish calm).faults.latch = false ∧ (finish State.reset).faults.latch = false ∧ calm.faults.level = calm.faults.formed
    ∧ calm.ev = .none := by decide +kernel

/-- A part at work: driving, an arm lowering, another waiting, a record queued, a sender known, a fault listed, a governor
period at the front of its queue. -/
def lively : State :=
  let s := travelling 1760 12300 0 500 sweeping
  let s := putArmIn .sr .waitDown (putArmIn .sl .lowering s)
  let sender : SenderRec := { port := .c, fmt := .std, id := 0x1F0, entry := 3, slot := 20, last := some 7, written := 1,
                              evenSeen := false, oddSeen := false, timer := none, fresh := true, silentUs := 0 }
  let s := putSender 0 sender (putFault 2 .tankLow 0 0 s)
  { s with lift := { s.lift with holder := some .sl, queue := [.sr] }
           ports := { s.ports with b := s.ports.b.enter plainFrame .forward }
           nvm := { s.nvm with cells := [⟨64, 7⟩, ⟨70, 1⟩] }
           pending := [.governorPeriod] }

theorem test_met_step : (match step lively with | .next _ => true | .fault _ | .refused _ => false) = true := by
  decide +kernel
theorem test_met_StepKeepsLevel : LevelStands lively ∧ MarksClear lively := by
  unfold LevelStands MarksClear; decide +kernel
theorem test_met_StepKeepsRecordPages : RecordPagesOk lively := by unfold RecordPagesOk; decide +kernel
theorem test_met_StepKeepsQueues_runs : RunsOk lively := by unfold RunsOk; decide +kernel
theorem test_met_StepKeepsQueues : QueuesOk lively := by unfold QueuesOk PortUnit.ok; decide +kernel
theorem test_met_StepKeepsSlotRanges : SlotRangesOk lively := by
  refine ⟨by decide +kernel, ?_⟩
  have h : ∀ i : Fin 24, ∀ r ∈ lively.senders[i], (∀ v ∈ (lively.tables.entries[r.entry]).valuePick, v.slot = r.slot)
      ∧ ∀ x ∈ r.last, (lively.tables.slots[r.slot]).min ≤ x ∧ x ≤ (lively.tables.slots[r.slot]).max := by decide +kernel
  exact h
theorem test_met_StepKeepsGovernor : GovernorOk lively := by
  refine ⟨by decide +kernel, by decide +kernel, by decide +kernel, by decide +kernel, by decide +kernel,
    ⟨0, by decide +kernel⟩, by decide +kernel, by decide +kernel, by decide +kernel, by decide +kernel⟩
theorem test_met_StepKeepsLiftCircuit : LiftCircuitOk lively := by
  refine ⟨by decide +kernel, by decide +kernel, ?_, ?_, by decide +kernel, ?_, ?_⟩ <;> intro a <;> cases a <;> decide +kernel
/-- A fault list is well formed when its records pass the checks one by one. -/
theorem fault_list_ok (s : State)
    (a : ∀ r ∈ s.faults.aggregate, (r.kind = .faultListFull ∧ r.subject = 0) ∧ r.merged.Nodup
      ∧ ∀ m ∈ r.merged, s.faults.find m.1 m.2 = none)
    (b : ∀ i : Fin 15, ∀ r ∈ s.faults.places[i], r.kind ≠ .faultListFull)
    (c : ∀ i j : Fin 15, ∀ r ∈ s.faults.places[i], ∀ q ∈ s.faults.places[j], r.kind = q.kind → r.subject = q.subject → i = j)
    (d : ∀ r ∈ s.faults.records, r.order < s.faults.nextOrder) : FaultListOk s :=
  ⟨fun r e => (a r e).1, b, fun i j r q hr hq => c i j r hr q hq,
    fun r e => ⟨(a r e).2.1, fun k n h => (a r e).2.2 (k, n) h⟩, d⟩
theorem test_met_StepKeepsFaultList : FaultListOk lively :=
  fault_list_ok _ (by decide +kernel) (by decide +kernel) (by decide +kernel) (by decide +kernel)
theorem test_met_StepKeepsCapture : CaptureJudged lively := by
  refine ⟨by decide +kernel, by decide +kernel, by decide +kernel, by decide +kernel, by decide +kernel, by decide +kernel,
    by decide +kernel, by decide +kernel, ?_⟩
  intro ch; cases ch <;> decide +kernel

/-! ### Restarts and power -/

/-- An unpowered part. -/
def dark : State := { calm with power := .unpowered }
/-- A nonvolatile area with the image of the factory tables, which has no record bytes. -/
def factoryImage : Nvm := { header := .written ⟨.std, 0x6E2, .std, 0x6E3, 0, 0, 0⟩, cells := [] }
theorem test_met_ColdStart :
    (dark.power = .unpowered ∧ dark.nvm.loadWhole = none ∧ dark.cutoffLine = false ∧ dark.ignLine = true)
    ∧ ({ dark with nvm := factoryImage } : State).nvm.loadWhole = some Tables.factory := by decide +kernel
/-- A part in ignition shutdown. -/
def shutting (t : Timer) (op : StoreOp) (ign : Bool) : State :=
  { calm with shutdown := { hold := true, timer := t }, store := { calm.store with op := op }, ignLine := ign }
def aRecall : StoreOp := .recalling { length := 70, page := 1, sum := 0, timer := some 1000 }
theorem test_met_WarmRestarts :
    ({ calm with power := .sleep } : State).power = .sleep ∧ calm.power ≠ .sleep
    ∧ (let s : State := { calm with service := { calm.service with restart := .left } }
       s.power = .running ∧ s.service.restart = .left ∧ s.shutdown.hold = false)
    ∧ dark.power ≠ .running ∧ calm.service.restart ≠ .left ∧ (shutting none .idle true).shutdown.hold = true := by
  decide +kernel
theorem test_met_IgnitionShutdownStarts :
    (calm.ignLine = true ∧ calm.power = .running ∧ calm.shutdown.hold = false)
    ∧ (calm.armCfg .sl).fitted = false ∧ ((putArmIn .sl .working calm).armCfg .sl).fitted = true
    ∧ dark.power ≠ .running ∧ (shutting none .idle true).shutdown.hold = true := by decide +kernel
theorem test_met_SleepIsEntered :
    let base (s : State) : Bool := decide (s.power = .running) && s.shutdown.hold
    base (shutting (some 0) .idle false) && base (shutting (some 1000000) .idle false) && base (shutting none .idle false)
      && base (shutting none .idle true) && base (shutting (some 0) aRecall false) = true
    ∧ (shutting (some 0) .idle false).faults.level = (shutting (some 0) .idle false).faults.formed
    ∧ (shutting (some 0) aRecall false).store.op ≠ .idle := by decide +kernel
def aStore (page : Nat) : StoreRun :=
  { image := [1, 2, 3], header := ⟨.std, 0x6E2, .std, 0x6E3, 0, 3, 6⟩, page := page, timer := some 4000 }
theorem test_met_PowerLossStopsThePart :
    calm.power ≠ .unpowered ∧ calm.store.op = .idle ∧ (aStore 0).page = 0
    ∧ ({ calm with store := ⟨false, .storing (aStore 1)⟩ } : State).nvm.header = .blank := by decide +kernel

/-! ### Port units and the frame path -/

/-- A valid entry that every frame matches. -/
def anyEntry (a : Action) (mode : SenderMode) (picks : List Pick) : MatchEntry :=
  { MatchEntry.factory with valid := true, sel := .any, fmt := .any, action := a, mode := mode, picks := picks }
/-- A pick of one byte at a bit position into a slot. -/
def bytePick (pos : Nat) (role : PickRole) (n : Fin 48) : Pick :=
  { bitPos := pos, width := 8, signed := false, mul := 1, div := 1, off := 0, role := role, slot := n }
/-- A queue of `n` records on the B-port. -/
def queued (n : Nat) (s : State) : State :=
  { s with ports := { s.ports with b := (List.range n).foldl (fun p _ => p.enter plainFrame .forward) PortUnit.fresh } }
/-- The B-port OFF. -/
def bOff (s : State) : State := { s with ports := { s.ports with b := { PortUnit.fresh with on := false } } }
theorem test_met_ReceivedFrames :
    (Frame.wf ⟨.std, 0, List.replicate 9 0⟩ = false ∧ Frame.wf ⟨.std, 0x800, []⟩ = false
      ∧ Frame.wf ⟨.std, 0x7FF, List.replicate 8 0⟩ = true ∧ dark.power ≠ .running ∧ (bOff calm).ports.b.on = false)
    ∧ (FrameOnPath .c plainFrame calm ∧ lookup calm .c plainFrame = none ∧ calm.tables.ports.passC = true)
    ∧ (FrameOnPath .c plainFrame (bOff calm) ∧ (bOff calm).ports.b.on = false)
    ∧ ((queued 12 calm).ports.b.queue.length = 12 ∧ (queued 11 calm).ports.b.queue.length = 11
      ∧ (queued 12 calm).ports.b.on = true)
    ∧ (let s := withEntry (anyEntry .pass .direct []) calm
       FrameOnPath .b plainFrame s ∧ lookup s .b plainFrame = some 0 ∧ (s.role .faultAck).value = s.ackReading)
    ∧ (let s := withEntry (anyEntry .drop .direct []) calm
       FrameOnPath .b plainFrame s ∧ lookup s .b plainFrame = some 0 ∧ s.tables.entries[(0 : Fin 96)].action = .drop)
    ∧ (let s : State := { calm with tables := { calm.tables with ports := { calm.tables.ports with passC := false } } }
       FrameOnPath .c plainFrame s ∧ lookup s .c plainFrame = none ∧ s.tables.ports.passC = false) := by
  unfold FrameOnPath; decide +kernel
/-- The entry matches at its least length and one below, at the last bit of its mask, by port and by format; the first of
two that match wins. -/
theorem test_met_ReceivedFrames_lookup :
    let e : MatchEntry := { anyEntry .drop .direct [] with minLen := 3, id := 0x0F0, mask := 0x0FF }
    let found (e : MatchEntry) (q : Port) : Option (Fin 96) := lookup (withEntry e calm) q plainFrame
    [found e .c, found { e with minLen := 4 } .c, found { e with mask := 0x1FF } .c, found { e with sel := .b } .c,
     found { e with sel := .b } .b, found { e with fmt := .ext } .c, found { e with valid := false } .c]
      = [some 0, none, none, none, some 0, none, none]
    ∧ (let s : State := { calm with tables := { calm.tables with entries := (calm.tables.entries.set 95 e).set 94 e } }
       lookup s .c plainFrame = some 94) := by decide +kernel
/-- The field ends exactly at the frame's end, and one bit beyond it. -/
theorem test_met_TakenValueIsWritten :
    let s (pos : Nat) : State := withEntry (anyEntry .take .direct [bytePick pos .value 5]) calm
    let met (s : State) : Prop := FrameOnPath .c plainFrame s ∧ lookup s .c plainFrame = some 0
      ∧ s.tables.slots[(5 : Fin 48)].vote = .none ∧ s.tables.slots[(5 : Fin 48)].paired = false
    met (s 16) ∧ met (s 17)
    ∧ (bytePick 16 .value 5).bitPos + 8 = 8 * plainFrame.data.length
    ∧ (bytePick 17 .value 5).bitPos + 8 = 8 * plainFrame.data.length + 1 := by
  unfold FrameOnPath; decide +kernel
/-- Both parities, with and without paired refresh. -/
theorem test_met_TokenPairRefreshes :
    let s (paired : Bool) : State :=
      withSlot 5 { SlotCfg.factory with paired := paired } (withEntry (anyEntry .take .direct [bytePick 0 .token 5]) calm)
    let met (b : Bool) : Prop := FrameOnPath .c plainFrame (s b) ∧ lookup (s b) .c plainFrame = some 0
      ∧ (s b).tables.slots[(5 : Fin 48)].vote = .none ∧ (s b).tables.slots[(5 : Fin 48)].paired = b
    met true ∧ met false
    ∧ (bytePick 0 .token 5).result plainFrame.data = some 1 ∧ (bytePick 8 .token 5).result plainFrame.data = some 2 := by
  unfold FrameOnPath; decide +kernel
theorem test_met_RewriteFillsItsField :
    let p (w : Nat) : RewritePlace := { bitPos := 8, width := w, source := .engineRequest, combine := .max }
    (p 16).bitPos + (p 16).width = 8 * plainFrame.data.length ∧ 8 * plainFrame.data.length < (p 17).bitPos + (p 17).width := by
  decide +kernel
/-- An entry that rewrites the second byte, and one that takes a byte and passes the frame, at a port with a place. -/
theorem test_met_forwards :
    let place : RewritePlace := { bitPos := 8, width := 8, source := .engineRequest, combine := .replace }
    let s := withEntry { anyEntry .rewrite .direct [] with place := some place } calm
    let t := withEntry (anyEntry .takePass .direct [bytePick 0 .value 5]) calm
    (FrameOnPath .c plainFrame s ∧ lookup s .c plainFrame = some 0 ∧ s.tables.entries[(0 : Fin 96)].action = .rewrite
      ∧ s.tables.entries[(0 : Fin 96)].place = some place ∧ (s.role .faultAck).value = s.ackReading
      ∧ s.ports.b.on = true ∧ s.ports.b.queue.length < 12)
    ∧ (FrameOnPath .c plainFrame t ∧ lookup t .c plainFrame = some 0 ∧ t.tables.entries[(0 : Fin 96)].action = .takePass)
    ∧ (after (.frameReceived .c plainFrame) s).ports.b.queue.map (·.frame.data) = [[1, 0, 3]]
    ∧ (after (.frameReceived .c plainFrame) t).ports.b.queue.map (·.frame.data) = [[1, 2, 3]] := by
  unfold FrameOnPath; decide +kernel
theorem test_met_SentRecordLeaves :
    ((queued 1 calm).power = .running ∧ (queued 1 calm).ports.b.offeredRecord = some ⟨plainFrame, .forward, 1⟩
      ∧ (queued 1 calm).ports.b.holders = []) ∧ dark.power ≠ .running ∧ calm.ports.b.offeredRecord = none := by decide +kernel
/-- A queue with a place free and the service unit, or channel 0, waiting for it. -/
def waiting (q : Port) (h : Holder) : State :=
  { calm with ports := calm.ports.set q { PortUnit.fresh.enter plainFrame .forward with holders := [h] }
              service := { calm.service with replies := [⟨[1], false, some (.std, 0x6E3)⟩] }
              channels := calm.channels.set 0 { ChanRun.restarted ChannelCfg.factory with state := .stalled, awaited := some 0 } }
theorem test_met_WaitingHolderGetsPlace :
    let base (q : Port) (h : Holder) : Prop :=
      (waiting q h).power = .running ∧ ((waiting q h).ports.get q).on = true ∧ ((waiting q h).ports.get q).queue.length < 12
      ∧ ((waiting q h).ports.get q).offered ≠ none ∧ ((waiting q h).ports.get q).holders = h :: []
    (base .c .service ∧ (waiting .c .service).service.replies = [⟨[1], false, some (.std, 0x6E3)⟩] ∧ Holder.service ∉ ([] : List Holder))
    ∧ (base .b (.channel 0) ∧ (waiting .b (.channel 0)).channels[0].awaited = some 0
      ∧ (waiting .b (.channel 0)).tables.channels[0].sequence = false ∧ (waiting .b (.channel 0)).channels[0].stop = false) := by
  decide +kernel
/-- A SEQUENCE send of three templates that waits for the last, and for the first: then the second finds a place, a full
queue (eleven records wait), or no window (`lo` beyond its identifier). -/
def sequenceWaits (n pos : Nat) (lo : Ident) : State :=
  let t : Template := { Template.factory with port := .b, id := 0x100, len := 1 }
  let cfg : ChannelCfg := { ChannelCfg.factory with sequence := true, runLen := 3, continuous := true }
  let c : ChanRun := { ChanRun.restarted cfg with enable := true, state := .stalled, position := pos, awaited := some pos, out := 1 }
  let s := queued n calm
  let b := { s.ports.b with holders := [.channel 0, .channel 1] }
  { s with tables := { s.tables with channels := s.tables.channels.set 0 cfg, templates := Vector.replicate 32 t
                                     windows := { s.tables.windows with b := ⟨⟨.std, lo, 0x7FF⟩, Window.factory⟩ } }
           ports := { s.ports with b := b }, channels := s.channels.set 0 c }
theorem test_met_WaitingHolderGetsPlace_sequence :
    let chan (s : State) : ChanRun := (after (.waitingHolderPlaced .b) s).channels[0]
    let s := sequenceWaits 11 0 0x100
    (s.power = .running ∧ s.ports.b.on = true ∧ s.ports.b.queue.length < 12 ∧ s.ports.b.offered ≠ none
      ∧ s.ports.b.holders = [.channel 0, .channel 1] ∧ s.channels[0].awaited = some 0)
    ∧ (s.tables.channels[0].sequence = true ∧ s.channels[0].stop = false ∧ s.tables.channels[0].runStart ≤ s.channels[0].position
      ∧ s.channels[0].position + 1 < s.tables.channels[0].runStart + s.tables.channels[0].runLen)
    ∧ (chan (sequenceWaits 3 2 0x100)).position = 0
    ∧ ((chan (sequenceWaits 3 0 0x100)).state, (chan (sequenceWaits 3 0 0x100)).out) = (.sending, 4)
    ∧ ((chan s).state, (chan s).awaited, (chan s).out) = (.stalled, some 1, 2)
    ∧ ((chan (sequenceWaits 3 0 0x101)).stop, (chan (sequenceWaits 3 0 0x101)).position) = (true, 1) := by decide +kernel
/-- A full C-port queue, to which a reply is offered. -/
theorem test_met_WaitingHolderGetsPlace_reply :
    let s : State := { calm with ports := { calm.ports with c := (queued 12 calm).ports.b } }
    s.power = .running ∧ s.ports.c.on = true ∧ s.ports.c.full = true ∧ s.service.replies = [] ∧ s.service.restart = .clear
    ∧ (after (.status 1 1) s).service.replies.map (·.offered) = [some (.std, 0x6E3)] := by decide +kernel
/-- FRAME_SENT with holders waiting: a SEQUENCE that stalls again, one with a stop mark, a SINGLE one, the service unit with
one reply and with two; and the last record of a send. -/
theorem test_met_SentRecordLeaves_holders :
    let stopped (s : State) : State := onChan 0 (fun c => { c with stop := true }) s
    let single (s : State) : State :=
      { s with tables := { s.tables with channels := s.tables.channels.set 0 { s.tables.channels[0] with sequence := false } } }
    let two : State :=
      let s := waiting .c .service
      let c := { (queued 12 calm).ports.b with holders := [.service] }
      { s with ports := s.ports.set .c c, service := { s.service with replies := s.service.replies ++ [⟨[2], false, none⟩] } }
    let chan (s : State) : ChanRun := (after (.frameSent .b) s).channels[0]
    let full := sequenceWaits 12 0 0x100
    let free (s : State) (q : Port) : Bool := (s.ports.get q).offeredRecord.any fun r =>
      decide (((s.ports.get q).queue.filter (fun x => x.order != r.order)).length < 12)
    (full.power = .running ∧ full.ports.b.holders ≠ [] ∧ full.ports.b.on = true ∧ full.channels[0].awaited = some 0
      ∧ free full .b = true ∧ free two .c = true ∧ free (waiting .c .service) .c = true)
    ∧ ((chan full).state, (chan full).awaited, (chan full).out) = (.stalled, some 1, 2)
    ∧ ((chan (stopped full)).state, (chan (stopped full)).position, (chan (stopped full)).out) = (.sending, 0, 2)
    ∧ ((chan (single full)).state, (chan (single full)).position, (chan (single full)).out) = (.sending, 1, 2)
    ∧ ((after (.frameSent .c) (waiting .c .service)).service.replies, (after (.frameSent .c) two).service.replies)
      = ([], [⟨[2], false, some (.std, 0x6E3)⟩]) := by decide +kernel
theorem test_met_LinkEvents :
    (calm.power = .running ∧ calm.ports.b.on = true ∧ calm.ports.b.holders = [] ∧ calm.ports.c.holders = [])
    ∧ (bOff calm).power = .running ∧ (bOff calm).ports.b.on = false := by decide +kernel
/-- LINK_LOST with holders waiting: the rest of a SEQUENCE is counted as sent and its send is complete, one with a stop
mark completes without a count, and the awaited replies are gone. -/
theorem test_met_LinkEvents_holders :
    let s := onChan 1 (fun c => { c with out := 1 }) (sequenceWaits 12 0 0x100)
    let lost : State := after (.linkLost .b) (onChan 0 (fun c => { c with out := 0 }) s)
    let v : State := formLevel (onChan 0 (fun c => { c with state := .sending, awaited := none, out := 0 }) s)
    (s.power = .running ∧ s.ports.b.on = true ∧ s.ports.b.holders = [.channel 0, .channel 1])
    ∧ (v.channels[0].pending = false ∧ v.tables.channels[0].continuous = true ∧ sendComplete 0 v = true)
    ∧ (lost.channels[0].state, lost.channels[0].position, lost.ports.b.on) = (.idle, 0, false)
    ∧ (after (.linkLost .c) (waiting .c .service)).service.replies = [] := by decide +kernel

/-! ### Signal slots and senders -/

theorem test_met_SlotAndRoleReadings :
    (reads .park 0 calm).tables.roles[Role.park.place] = some (slotOf .park) ∧ calm.tables.roles[Role.park.place] = none := by
  decide +kernel
/-- A slot whose timer runs. -/
def running (t : Nat) (status : SlotStatus) (n : Fin 48) (s : State) : State :=
  putSlot n { status := status, last := 4, clamped := false, evenSeen := false, oddSeen := false, timer := some t } s
theorem test_met_FreshnessRunsOut :
    (running 100000 .fresh 5 calm).power = .running ∧ ((running 0 .never 47 calm).slots[(47 : Fin 48)]).timer = some 0
    ∧ dark.power ≠ .running ∧ (calm.slots[(5 : Fin 48)]).timer = none
    ∧ ((running 0 .never 47 calm).role .faultAck).value = calm.ackReading := by decide +kernel
/-- A sender of slot 20 made by entry 0. -/
def sender (id : Ident) (timer : Timer) (fresh : Bool) : SenderRec :=
  { port := .c, fmt := .std, id := id, entry := 0, slot := 20, last := some 7, written := 0, evenSeen := false,
    oddSeen := false, timer := timer, fresh := fresh, silentUs := 0 }
/-- Slot 20 voted, and every frame presented to the sender table. -/
def voted (v : Vote) (minFresh : Nat) : State :=
  withSlot 20 { SlotCfg.factory with vote := v, timeout := 100, minFresh := minFresh }
    (withEntry (anyEntry .take .perSender [bytePick 0 .value 20]) calm)
theorem test_met_SenderFrames :
    let f : Frame := ⟨.std, 0x1F0, [9]⟩
    let s := voted .latest 1
    let full : State := { s with senders := Vector.ofFn fun i => some (sender (BitVec.ofNat 29 i.val) none false) }
    (FrameOnPath .c f s ∧ lookup s .c f = some 0 ∧ (bytePick 0 .value 20).result f.data = some 9
      ∧ s.tables.slots[(20 : Fin 48)].paired = false)
    ∧ (∀ j : Fin 24, full.senders[j] ≠ none) ∧ (∀ j : Fin 24, ∀ r ∈ full.senders[j], r.id ≠ f.id)
    ∧ s.senders[(0 : Fin 24)] = none
    ∧ (putSender 23 (sender 0x1F0 none false) s).senders[(23 : Fin 24)] = some (sender 0x1F0 none false) := by
  unfold FrameOnPath; decide +kernel
/-- Each vote, at the count of fresh senders that is just enough and one that is not; a disagreement of one more than the
tolerance. -/
theorem test_met_SenderTimesRunOut :
    let two (v : Vote) (m : Nat) : State :=
      putSender 2 { sender 3 (some 6) true with last := some 8 } (putSender 1 (sender 2 (some 6) true)
        (putSender 0 (sender 1 (some 5) true) (voted v m)))
    [(Vote.latest, 2), (.lowest, 2), (.highest, 2), (.agree, 2), (.agree, 3), (.lowest, 3)].all (fun p =>
      let u := after (.senderTimerExpiry 0) (two p.1 p.2)
      decide ((two p.1 p.2).power = .running) && decide ((freshSenders u 20).length = 2)
        && ((freshSenders u 20).map (·.value) == [7, 8])) = true
    ∧ (two .agree 1).tables.slots[(20 : Fin 48)].tolerance = 0
    ∧ (sender 1 none false).fresh = false ∧ (voted .latest 1).tables.slots[(20 : Fin 48)].timeout ≠ 0
    ∧ (sender 1 none true).fresh = true ∧ calm.tables.slots[(20 : Fin 48)].timeout = 0 := by decide +kernel

/-! ### Speed capture and curves -/

/-- Channel A with a record, under the factory configuration. -/
def capA (r : CapRun) : State := { calm with capture := { calm.capture with a := r } }
def moving : CapRun :=
  { CapRun.restarted with status := .running, measuring := true, lastEdge := some 0, standstillT := some 400000, speed := 700 }
def unfitted : State := { calm with tables := { calm.tables with drive := { calm.tables.drive with capA := ⟨false, 1000⟩ } } }
/-- An edge at the very moment the standstill time ends is in time, one 1 µs later is not; both modes, with and without
an edge remembered. -/
theorem test_met_PulseEdgeIsTaken :
    calm.power = .running ∧ (unfitted.tables.drive.cap .a).fitted = false ∧ (calm.tables.drive.cap .a).fitted = true
    ∧ ((capA { moving with mode := .count }).capture.get .a).mode = .count
    ∧ ((calm.capture.get .a).mode = .period ∧ (calm.capture.get .a).lastEdge = none ∧ (calm.capture.get .a).standstillT = none)
    ∧ ((capA moving).capture.get .a).lastEdge = some 0 ∧ ((capA moving).capture.get .a).standstillT = some 400000
    ∧ (400000 - (capA moving).clock).toNat = 400000 ∧ (400001 - (capA moving).clock).toNat = 400001 := by decide +kernel
/-- The clauses of a period at 999, 1,000 and 0 µs, which counts as 1. -/
theorem test_capture_period_bounds :
    let x (n : Nat) : CapRun := (after (.pulseEdge .a false (BitVec.ofNat 32 n)) (capA moving)).capture.a
    ((x 999).mode, (x 999).speed, (x 1000).mode, (x 1000).speed, (x 0).lastPeriod) = (.count, -1001, .period, -1000, some 1) := by
  decide +kernel
theorem test_met_CaptureTimersEnd :
    let w (n : Nat) : State := capA { moving with mode := .count, windowT := some 0, count := n }
    let lost : State := capA { moving with lossT := some 0, returnT := some 1000000 }
    (w 9).power = .running ∧ ((w 9).capture.get .a).windowT = some 0 ∧ ((w 10).capture.get .a).windowT = some 0
    ∧ ((capA moving).capture.get .a).standstillT = some 400000 ∧ (lost.capture.get .a).lossT = some 0
    ∧ (lost.capture.get .a).returnT = some 1000000
    ∧ ({ calm with capture := { calm.capture with disagreeT := some 0 } } : State).capture.disagreeT = some 0
    ∧ lost.capture.noneBegun = false ∧ (after (.lossTimerExpiry .a) lost).capture.noneBegun = false := by decide +kernel
theorem test_met_CurveValue : 1 ≤ Curve.factory.step ∧ (0 : Nat) < Curve.factory.step ∧ 124 < speedCurve.step := by
  decide +kernel

/-! ### The governor -/

/-- A state with a request for profile 1 of a kind, at a speed. -/
def asking (kinds : ProfileKind × ProfileKind) (speed ask : Int) (level : Fin 4) : State :=
  let p0 : Profile := { Profile.factory with kind := kinds.1 }
  let p1 : Profile := { Profile.factory with kind := kinds.2, ceiling := 900 }
  let s := reads .profileRequest ask calm
  let profiles := (s.tables.profiles.set 0 p0).set 1 p1
  { s with tables := { s.tables with profiles := profiles }
           capture := { s.capture with s := speed }, faults := { s.faults with level := level } }
/-- R60's four rows, each at the last value that switches and the first that does not. -/
theorem test_profile_switch :
    let active (k : ProfileKind × ProfileKind) (v : Int) (l : Fin 4) : Fin 4 :=
      (after .governorPeriod (asking k v 1 l)).selector.active
    (active (.work, .work) 5000 0, active (.work, .transport) 833 0, active (.work, .transport) (-834) 0,
     active (.transport, .work) 900 0, active (.transport, .work) 901 0, active (.transport, .transport) (-900) 0)
      = (1, 1, 0, 1, 0, 1)
    ∧ (asking (.work, .work) 0 1 1).faults.level = 1 ∧ (asking (.work, .work) 0 1 2).faults.level = 2 := by decide +kernel
theorem test_met_GovernorPeriodSelects :
    let s (v : Int) : State := asking (.work, .work) 0 v 0
    (s 1).power = .running ∧ (s 1).gov.timer = some 10000
    ∧ ((s 1).role .profileRequest = ⟨1, true⟩) ∧ ((s 0).role .profileRequest = ⟨0, true⟩) ∧ (s 0).selector.active = 0
    ∧ ((s (-1)).role .profileRequest = ⟨-1, true⟩) ∧ ((s 4).role .profileRequest = ⟨4, true⟩)
    ∧ (calm.role .profileRequest).fresh = false ∧ (s 4).selector.pending = none
    ∧ ({ s 4 with selector := ⟨0, some 1⟩ } : State).selector.pending = some 1 := by decide +kernel
/-- A machine at rest with a pedal and an engine speed, PARK released. -/
def resting (st : GovState) (pedal n : Int) : State :=
  let s := reads .pedal pedal (reads .park 0 (reads .engineSpeed n calm))
  { s with gov := { s.gov with state := st } }
/-- NEUTRAL at the deadband, one beyond it, and at the minimum engine speed; HELD with what lets it leave and what does
not; the three causes that hold. -/
theorem test_met_GovernorAtRest :
    let state (s : State) : GovState := (after .governorPeriod s).gov.state
    (resting .neutral 41 600).power = .running ∧ (resting .neutral 41 600).gov.timer = some 10000
    ∧ [resting .neutral 41 600, resting .neutral (-41) 600, resting .neutral 40 600, resting .neutral 41 599,
       resting .held 40 0, resting .held 41 0].map state = [.forward, .reverse, .neutral, .neutral, .neutral, .held]
    ∧ ({ resting .neutral 0 0 with faults := { Faults.empty with level := 2 } } : State).faults.level = 2
    ∧ ({ resting .neutral 0 0 with service := { calm.service with session := true } } : State).service.session = true
    ∧ (shutting none .idle true).shutdown.hold = true ∧ State.reset.faults.level = 3 := by decide +kernel
theorem test_met_TravelIsComputed :
    let s := travelling 1760 12300 1760 500 { sweeping with cruiseAllowed := true }
    let set : State := reads .cruiseSet 1 { s with gov := { s.gov with rememberedSet := some 0 } }
    let stop : State := travelling 0 0 0 (-41) sweeping
    (s.power = .running ∧ s.gov.timer = some 10000 ∧ s.gov.state = .forward ∧ s.faults.level ≤ 1 ∧ s.service.session = false
      ∧ s.shutdown.hold = false ∧ (s.role .park) = ⟨0, true⟩ ∧ 600 ≤ (s.role .engineSpeed).value)
    ∧ ((set.role .cruiseSet) = ⟨1, true⟩ ∧ 300 ≤ set.gov.v ∧ (set.role .cruiseCancel).value = 0
      ∧ (after .governorPeriod set).gov.cruise = some 1760)
    ∧ (reads .cruiseCancel 1 s).role .cruiseCancel = ⟨1, true⟩ ∧ s.selector.pending ≠ some s.selector.active
    ∧ ((stop.role .pedal).value < -40 ∧ (after .governorPeriod stop).gov.state = .neutral)
    ∧ ({ s with gov := { s.gov with state := .reverse, dir := -1 } } : State).gov.state = .reverse := by decide +kernel
theorem test_met_ControlledStop :
    let s := travelling 1800 12900 1800 0 sweeping
    let low : State := reads .engineSpeed 599 s
    let parked : State := reads .park 1 s
    let two : State := { s with faults := { s.faults with level := 2 } }
    let last : State := { s with gov := { s.gov with state := .stopping, v := 40 }, capture := { s.capture with s := 30 } }
    (two.faults.level = 2 ∧ two.power = .running ∧ two.gov.timer = some 10000 ∧ two.service.session = false
      ∧ two.shutdown.hold = false ∧ two.gov.state = .forward)
    ∧ (low.role .engineSpeed).value < 600 ∧ (parked.role .park).value ≠ 0 ∧ last.gov.state = .stopping ∧ last.faults.level ≠ 3
    ∧ ((after .governorPeriod two).gov.v, (after .governorPeriod two).gov.p) = (1760, 238)
    ∧ (after .governorPeriod last).gov.state = .neutral := by decide +kernel
theorem test_met_OverspeedIsWatched :
    let s (v : Int) (t : Nat) (b : Bool) : State :=
      { withProfile sweeping calm with capture := { calm.capture with s := v }, gov := { calm.gov with overspeedMs := t, overspeed := b } }
    (s 3001 490 false).power = .running ∧ (s 3001 490 false).gov.timer = some 10000
    ∧ (after .governorPeriod (s 3001 490 false)).faults.holds .overspeed 0 = true
    ∧ (after .governorPeriod (s 3001 480 false)).gov.overspeedMs = 490
    ∧ (after .governorPeriod (s (-3000) 500 true)).gov.overspeed = false
    ∧ (s 0 500 false).gov.overspeedMs = 500 ∧ (s 0 490 false).gov.overspeedMs ≠ 500 ∧ (s 0 500 true).gov.overspeed = true
    ∧ (s 0 500 false).gov.overspeed = false ∧ dark.power ≠ .running := by decide +kernel

/-! ### Arms and response level -/

/-- SL in a state with a position and a deflection. -/
def slAt (x : ArmState) (pos defl : Int) (ask : Int) : State :=
  let s := reads (.armRequest .sl) ask (reads (.armPosition .sl) pos (reads (.armDeflection .sl) defl
    (withProfile working (putArmIn .sl x calm))))
  match x with
  | .lowering | .lifting => { s with lift := { s.lift with holder := some .sl } }
  | .init | .stowed | .waitDown | .working | .float | .waitUp | .frozen | .faulted => s
theorem test_met_ArmCommandsFollowStates :
    calm.power = .running ∧ calm.lift.timer = some 20000 ∧ ((slAt .working 900 0 1).tables.arms.arms.get .sl).fitted = true
    ∧ (after .armPeriod (slAt .working 900 0 1)).arms.sl.desiredDown = true := by decide +kernel
theorem test_lift_circuit_of_one :
    LiftCircuitOk (slAt .lowering 900 0 1) ∧ LiftCircuitOk (slAt .stowed 0 0 1) := by
  constructor <;> refine ⟨by decide +kernel, by decide +kernel, ?_, ?_, by decide +kernel, ?_, ?_⟩ <;> intro a <;>
    cases a <;> decide +kernel
/-- Each transition at the position or deflection that makes it and at the neighbour that does not. -/
theorem test_met_ArmTransitions :
    let turned (x : ArmState) (pos defl ask : Int) : ArmState := (after .armPeriod (slAt x pos defl ask)).arms.sl.state
    (slAt .init 50 0 1).power = .running ∧ (slAt .init 50 0 1).lift.timer = some 20000
    ∧ [turned .init 50 0 1, turned .lowering 900 0 1, turned .lowering 899 0 1, turned .lifting 50 0 0, turned .lifting 51 0 0,
       turned .working 900 301 1, turned .working 900 300 1, turned .float 900 149 1, turned .float 900 150 1, turned .stowed 0 0 0, turned .stowed 0 0 1,
       turned .working 900 0 0, turned .faulted 0 0 1]
      = [.stowed, .working, .lowering, .stowed, .lifting, .float, .working, .working, .float, .stowed, .waitDown, .waitUp,
         .faulted]
    ∧ ((putArmIn .sl .init calm).role (.armPosition .sl)).fresh = false ∧ calm.faults.level < 3
    ∧ calm.shutdown.hold = false := by decide +kernel
/-- SR in a state with the arms and the queue before it as given: what the period makes of it. -/
def srTurns (sl x : ArmState) (q : List Arm) (origin : WaitOrigin) (pos ask : Int) (hold : Bool) : ArmState :=
  let s := reads (.armRequest .sr) ask (reads (.armPosition .sr) pos (reads (.armRequest .sl) 1
    (withProfile working (putArmIn .sl sl (putArmIn .sr x calm)))))
  let s : State := { s with lift := { s.lift with queue := q }, shutdown := { s.shutdown with hold := hold }
                            arms := { s.arms with sr := { s.arms.sr with origin := origin, frozenMotion := .down } } }
  (after .armPeriod s).arms.sr.state
/-- SR joins from each state, stays outside under the shutdown hold and behind a full queue, turns back by each origin and at the
positions where the rules meet; with an engine at 600 rpm and flow the head is granted at once. -/
theorem test_met_ArmTransitions_turns :
    let t (x : ArmState) (q : List Arm) (o : WaitOrigin) (pos ask : Int) : ArmState := srTurns .working x q o pos ask false
    [t .init [] .midway 51 1, t .stowed [] .midway 0 1, t .float [] .midway 900 0, t .frozen [] .working 400 1]
      = [.waitUp, .waitDown, .waitUp, .waitDown]
    ∧ srTurns .stowed .stowed [] .midway 0 1 true = .stowed ∧ srTurns .working .frozen [] .working 400 1 true = .frozen
    ∧ srTurns .waitDown .working [.sl, .mb] .midway 900 0 false = .working
    ∧ [t .waitDown [.sr] .stowed 0 0, t .waitDown [.sr] .midway 50 0, t .waitDown [.sr] .midway 51 0]
      = [.stowed, .stowed, .waitUp]
    ∧ [t .waitUp [.sr] .working 0 1, t .waitUp [.sr] .midway 900 1, t .waitUp [.sr] .midway 899 1, t .waitUp [.sr] .midway 0 0]
      = [.working, .working, .waitDown, .waitUp]
    ∧ (let s := reads .engineSpeed 600 (slAt .stowed 0 0 1)
       let u := after .armPeriod { s with alloc := { s.alloc with fav := s.tables.arms.liftFlow } }
       u.arms.sl.state = .lowering ∧ u.lift.holder = some .sl) := by decide +kernel
/-- Three FROZEN arms at the release of a cut-off: two find a place, the one that was going up first. -/
def frozenThree : State :=
  let w (m : Motion) (k : Nat) : ArmRec := { ArmRec.restarted { ArmCfg.factory with fitted := true } with state := .frozen, frozenMotion := m, frozenRank := k }
  let s := putFault 0 .cutoff 0 3 calm
  { s with cutoffLine := true, arms := ⟨w .down 1, w .down 3, w .up 2⟩
           faults := { s.faults with latch := true, level := 3 } }
theorem test_met_ArmTransitions_rejoin :
    let s := frozenThree
    let t := after .cutoffInactive s
    (s.power = .running ∧ s.cutoffLine = true ∧ s.faults.latch = true ∧ s.faults.level = 3 ∧ s.shutdown.hold = false
      ∧ s.lift.queue = [] ∧ (s.role .pedal).fresh = false)
    ∧ (∀ r ∈ s.faults.records, r.severity = 3 → r.kind = .cutoff ∧ r.subject = 0 ∧ r.ack = false)
    ∧ FaultListOk s ∧ t.lift.queue = [.mb, .sl] ∧ t.arms.sr.state = .frozen ∧ t.faults.level = 0 := by
  exact ⟨by decide +kernel, by decide +kernel,
    fault_list_ok _ (by decide +kernel) (by decide +kernel) (by decide +kernel) (by decide +kernel), by decide +kernel⟩
theorem test_met_ArmTimersEnd :
    let s := sweeper 600 200 working
    let stuck (q : List Arm) : State :=
      { s with arms := { s.arms with sl := { s.arms.sl with state := .lowering, motionT := some 0, floatT := some 0, waitT := some 5 } }
               lift := { s.lift with holder := some .sl, queue := q } }
    (stuck []).power = .running ∧ ((stuck []).arms.get .sl).motionT = some 0 ∧ (stuck []).lift.queue.head? ≠ some .sl
    ∧ (stuck [.mb]).lift.queue = .mb :: [] ∧ (stuck [.mb]).faults.level < 3 ∧ (stuck [.mb]).shutdown.hold = false
    ∧ 600 ≤ ((stuck [.mb]).role .engineSpeed).value ∧ (stuck [.mb]).tables.arms.liftFlow ≤ (stuck [.mb]).alloc.fav
    ∧ (reads .engineSpeed 599 (stuck [.mb])).role .engineSpeed = ⟨599, true⟩
    ∧ s.faults.find .armStuck 0 = none ∧ s.faults.mergedHas .armStuck 0 = false ∧ s.faults.places[(0 : Fin 15)] = none
    ∧ ((stuck []).arms.get .sl).floatT = some 0 ∧ ((stuck []).arms.get .sl).waitT = some 5 := by decide +kernel
/-- A grant at the expiry before the next arm period gives the commands and the limit the arm last read. -/
theorem test_met_ArmTimersEnd_read :
    let s := putArmIn .mb .waitDown (putArmIn .sl .lowering (sweeper 600 200 working))
    let s : State :=
      { s with arms := { s.arms with sl := { s.arms.sl with motionT := some 0 } }
               lift := { s.lift with holder := some .sl, queue := [.mb] }
               tables := { s.tables with arms := { s.tables.arms with
                 arms := s.tables.arms.arms.set .mb { ArmCfg.factory with fitted := true, lower := 1, motionLimit := 100 } } } }
    let u := after (.motionTimerExpiry .sl) s
    (u.lift.holder, u.arms.mb.valve, u.arms.mb.motionT) = (some .mb, ArmCfg.factory.lower, some (1000 * ArmCfg.factory.motionLimit))
    ∧ ArmCfg.factory.lower ≠ 1 ∧ ArmCfg.factory.motionLimit ≠ 100 := by decide +kernel
theorem test_met_CutoffLatch :
    let latched : State := { calm with faults := { calm.faults with latch := true, releaseT := some 10000 } }
    (calm.power = .running ∧ calm.cutoffLine = false ∧ calm.faults.latch = false) ∧ latched.faults.latch = true
    ∧ ({ latched with cutoffLine := true } : State).cutoffLine = true ∧ latched.faults.releaseT = some 10000
    ∧ dark.power ≠ .running ∧ (calm.role .pedal).fresh = false ∧ (reads .pedal 41 calm).role .pedal = ⟨41, true⟩
    ∧ (reads .pedal (-40) calm).role .pedal = ⟨-40, true⟩ ∧ calm.profile.deadband = 40 := by decide +kernel
theorem test_met_LevelThreeResponse :
    lively.power = .running ∧ lively.cutoffLine = false ∧ lively.faults.latch = false ∧ lively.faults.level ≠ 3 := by
  decide +kernel

/-! ### Flow, spray, tables -/

theorem test_met_FlowIsAllotted : calm.power = .running ∧ calm.alloc.timer = some 20000 := by decide +kernel
/-- The tank levels and speeds where the clauses of SPRAY_PERIOD meet, and a linger at its last and its first ended
value. -/
theorem test_met_SprayIsDosed :
    let s (tank : Int) (p : Spray) (v : Int) : State := { spraying tank p with capture := { calm.capture with s := v } }
    let x (tank : Int) (p : Spray) (v : Int) : Spray := (after .sprayPeriod (s tank p v)).spray
    let low : Spray := { midShift with lowArmed := false, dry := true }
    let linger (ms : Nat) : Spray := { midShift with above := false, linger := true, belowMs := ms }
    (s 150 midShift 200).power = .running ∧ (s 150 midShift 200).spray.timer = some 50000
    ∧ ((x 150 midShift 200).lowArmed, (x 149 midShift 200).lowArmed, (x 250 low 200).lowArmed, (x 251 low 200).lowArmed)
        = (true, false, false, true)
    ∧ ((x 30 midShift 200).dry, (x 29 midShift 200).dry, (x 250 low 200).dry, (x 251 low 200).dry) = (false, true, true, false)
    ∧ ((x 600 midShift 199).linger, (x 600 (linger 1900) 0).linger, (x 600 (linger 1950) 0).linger) = (true, true, false)
    ∧ ((calm.role .tankLevel).fresh, calm.spray.firstPending) = (false, true)
    ∧ (({ calm with spray := linger 2000 } : State).tables.spray.linger ≤ 2000) ∧ calm.spray.linger = false
    ∧ (linger 1999).belowMs < calm.tables.spray.linger ∧ dark.power ≠ .running := by decide +kernel
/-- Full, the accumulator stays; CLEAR_VOLUME as a command and as a frame makes it 0. -/
theorem test_met_VolumeNeverDecreases :
    let full : Spray := { midShift with volume := 2 ^ 48 - 1 }
    let f : Frame := ⟨.std, 0x6E2, [0x0C, 1]⟩
    (spraying 600 full).spray.volume < 2 ^ 48 ∧ (Instr.frameReceived .c f).wf = true ∧ goes (.frameReceived .c f) (spraying 600 full) = true
    ∧ isRequest (spraying 600 full) .c f = true ∧ (after (.frameReceived .c f) (spraying 600 full)).spray.volume = 0
    ∧ (after .sprayPeriod (spraying 600 full)).spray.volume = 2 ^ 48 - 1
    ∧ (after (.clearVolume 1) (spraying 600 full)).spray.volume = 0 := by decide +kernel
/-- A session with bytes in its stage buffer. -/
def staging (b : List Byte) : State :=
  { calm with service := { calm.service with session := true, stage := Vector.ofFn fun i => b.getD i.val 0 } }
theorem test_met_TablesChangeOnlyByLoad :
    let s := staging speedCurve.encode
    (Instr.commitCurve 1 0).wf = true ∧ goes (.commitCurve 1 0) s = true ∧ (after (.commitCurve 1 0) s).tables ≠ s.tables := by
  decide +kernel
theorem test_met_SourcesReadTheirOwners :
    State.reset.faults.top State.reset.tables.drive.notifyThreshold = some storeInvalidAtReset
    ∧ calm.faults.top calm.tables.drive.notifyThreshold = none ∧ State.reset.faults.level = 3 ∧ calm.faults.level ≠ 3 := by
  decide +kernel
/-- A frame that carries TOP_FAULT enters a queue and names the one record of the list. -/
theorem test_met_SourcesReadTheirOwners_announced :
    let t : Template := { Template.factory with places := [⟨0, 16, false, .topFault, 1, 1, 0⟩] }
    let s : State := { State.reset with tables := { State.reset.tables with templates := State.reset.tables.templates.set 0 t } }
    FaultOrdersOk s ∧ (s.template 0).places.any (fun p => p.source == .topFault) = true
    ∧ s.faults.records.map (·.announced) = [false]
    ∧ (placeChannelFrame 0 0 .b s).faults.records.map (·.announced) = [true] := by
  unfold FaultOrdersOk; decide +kernel
/-- A template with one place that ends at the frame's last bit. -/
def onePlace (signed : Bool) : Template :=
  { Template.factory with port := .b, id := 0x100, len := 1, places := [⟨3, 5, signed, .cmdSpeed, 1, 1, 0⟩] }
theorem test_met_FrameIsBuilt :
    (onePlace true).places = [⟨3, 5, true, .cmdSpeed, 1, 1, 0⟩] ∧ 1 ≤ 5 ∧ 3 + 5 ≤ 8 * (onePlace true).len ∧ (onePlace true).len ≤ 8
    ∧ [(-17, true), (-16, true), (15, true), (16, true), (32, false)].map (fun p : Int × Bool =>
        let s : State := { calm with gov := { calm.gov with v := p.1.natAbs, dir := p.1.sign } }
        (buildFrame s (onePlace p.2)).data) = [[0x80], [0x80], [0x78], [0x78], [0xF8]] := by decide +kernel

/-! ### Send channels -/

/-- Channel 0 with source INTERVAL at 100 ms, sending template 0 on the B-port. -/
def interval (c : ChanRun) (cfg : ChannelCfg) (w : Window) : State :=
  { calm with
    tables := { calm.tables with channels := calm.tables.channels.set 0 cfg, templates := calm.tables.templates.set 0 (onePlace false)
                                 windows := { calm.tables.windows with b := ⟨w, Window.factory⟩ } }
    channels := calm.channels.set 0 c }
def intervalCfg : ChannelCfg := { ChannelCfg.factory with source := .interval, param := 100, continuous := true }
def enabled : ChanRun := { ChanRun.restarted intervalCfg with enable := true }
def justThere : Window := { fmt := .std, lo := 0x100, hi := 0x100 }
theorem test_met_IntervalStartsASend :
    let s := interval enabled intervalCfg justThere
    (s.power = .running ∧ (s.chan 0).timer = some 100000 ∧ s.tables.channels[(0 : Fin 6)].sequence = false)
    ∧ ((s.chan 0).enable = true ∧ (s.chan 0).state = .idle ∧ (s.chan 0).stop = false ∧ (s.chan 0).out = 0)
    ∧ insideWindows s .b .std 0x100 = true ∧ insideWindows s .b .std 0x101 = false ∧ s.ports.b.on = true ∧ s.ports.b.full = false
    ∧ (queued 12 s).ports.b.full = true ∧ (bOff s).ports.b.on = false ∧ (onePlace false).carriesTop = false
    ∧ ((interval (ChanRun.restarted intervalCfg) intervalCfg justThere).chan 0).enable = false
    ∧ ((interval { enabled with state := .sending } intervalCfg justThere).chan 0).state ≠ .idle
    ∧ (after (.intervalTimerExpiry 0) s).channels[0].out = 1 := by decide +kernel
/-- A SEQUENCE send of three templates from IDLE with `n` records in the B-port queue: all taken, stalled at the second,
refused at the first, all counted as sent on an OFF port. -/
def sequenceStarts (n : Nat) (lo : Ident) : State :=
  let s := sequenceWaits n 0 lo
  let cfg := { s.tables.channels[0] with source := .interval, param := 100 }
  { s with tables := { s.tables with channels := s.tables.channels.set 0 cfg }
           ports := { s.ports with b := { s.ports.b with holders := [] } }
           channels := s.channels.set 0 { ChanRun.restarted cfg with enable := true } }
theorem test_met_IntervalStartsASend_sequence :
    let s := sequenceStarts 11 0x100
    let chan (s : State) : ChanRun := (after (.intervalTimerExpiry 0) s).channels[0]
    ((s.chan 0).timer = some 100000 ∧ 1 ≤ (s.tables.channels[(0 : Fin 6)]).runLen ∧ s.tables.channels[(0 : Fin 6)].sequence = true
      ∧ (s.chan 0).enable = true ∧ (s.chan 0).state = .idle ∧ (s.chan 0).stop = false)
    ∧ ((chan (sequenceStarts 9 0x100)).state, (chan (sequenceStarts 9 0x100)).out) = (.sending, 3)
    ∧ ((chan s).state, (chan s).awaited, (chan s).out) = (.stalled, some 1, 1)
    ∧ ((chan (sequenceStarts 9 0x101)).state, (chan (sequenceStarts 9 0x101)).enable) = (.idle, false)
    ∧ ((chan (bOff s)).state, (chan (bOff s)).enable) = (.idle, true) := by decide +kernel
/-- A counted send that is the last, one that is not, a stop-marked one. -/
theorem test_met_SendIsCompleted :
    let s (n : Nat) (stop : Bool) : State :=
      interval { enabled with state := .sending, remaining := n, stop := stop } { intervalCfg with continuous := false, notify := true } justThere
    let u (n : Nat) (stop : Bool) : ChanRun := (after (.sendCompletion 0) (s n stop)).channels[0]
    (s 1 false).power = .running ∧ (s 1 false).channels[0].state = .sending ∧ (s 1 false).channels[0].out = 0
    ∧ (s 1 false).channels[0].pending = false ∧ (s 1 false).tables.channels[0].chain = none
    ∧ ((u 1 false).done, (u 1 false).enable, (u 2 false).remaining, (u 2 true).remaining) = (true, false, 1, 2)
    ∧ calm.channels[0].state ≠ .sending
    ∧ (interval { enabled with state := .sending, out := 1 } intervalCfg justThere).channels[0].out ≠ 0 := by decide +kernel

/-! ### The fault list -/

/-- A list whose fifteen general places hold SIGNAL_STALE of slots 0 to 14 at a severity. -/
def filled (sev : Fin 4) : State :=
  let r (n : Nat) : FaultRec := { kind := .signalStale, subject := n, severity := sev, ack := false, latched := false,
                                  count := 255, firstSeen := 0, order := n + 1, announced := false, merged := [] }
  { calm with faults := { calm.faults with nextOrder := 16, places := Vector.ofFn fun i => some (r i.val) } }
/-- The same with an aggregate that holds a condition. -/
def overfull : State :=
  let r : FaultRec := { kind := .faultListFull, subject := 0, severity := 2, ack := true, latched := false, count := 1
                        firstSeen := 0, order := 16, announced := false, merged := [(.armStuck, 0)] }
  { filled 2 with faults := { (filled 2).faults with aggregate := some r, nextOrder := 17 } }
theorem test_met_fault_list (sev : Fin 4) : FaultListOk (filled sev) := by
  revert sev
  have a : ∀ v, (filled v).faults.aggregate = none := fun _ => rfl
  have b : ∀ v, ∀ i : Fin 15, ∀ r ∈ (filled v).faults.places[i], r.kind ≠ .faultListFull := by decide +kernel
  have c : ∀ v, ∀ i j : Fin 15, ∀ r ∈ (filled v).faults.places[i], ∀ q ∈ (filled v).faults.places[j],
      r.kind = q.kind → r.subject = q.subject → i = j := by decide +kernel
  have d : ∀ v, ∀ r ∈ (filled v).faults.records, r.order < (filled v).faults.nextOrder := by decide +kernel
  exact fun v => fault_list_ok _ (fun r e => by rw [a v] at e; cases e) (b v) (c v) (d v)
theorem test_met_fault_list_merged : FaultListOk overfull :=
  fault_list_ok _ (by decide +kernel) (by decide +kernel) (by decide +kernel) (by decide +kernel)
/-- A list with sixteen records, the aggregate among them. -/
theorem test_met_StepKeepsFaultList_orders : FaultOrdersOk lively ∧ FaultOrdersOk overfull := by
  unfold FaultOrdersOk; decide +kernel
/-- An ACTIVE record and a merged condition that wait to be observed again: their report is not counted. -/
def kept : State :=
  let s := putFault 2 .tankLow 0 0 calm
  { s with faults := { s.faults with unconfirmed := [⟨.tankLow, 0, some 5⟩, ⟨.cutoff, 0, some 7⟩] } }
theorem kept_list : FaultListOk kept :=
  fault_list_ok _ (by decide +kernel) (by decide +kernel) (by decide +kernel) (by decide +kernel)
theorem test_met_ConditionBegins_confirmed :
    let merged : State := { overfull with faults := { overfull.faults with unconfirmed := [⟨.armStuck, 0, some 5⟩] } }
    let u := reportBegun .tankLow 0 1 kept
    (FaultListOk kept ∧ kept.faults.waits .tankLow 0 = true ∧ (kept.faults.find .tankLow 0).isSome = true)
    ∧ (merged.faults.waits .armStuck 0 = true ∧ merged.faults.mergedHas .armStuck 0 = true ∧ merged.faults.find .armStuck 0 = none)
    ∧ (u.faults.places[(2 : Fin 15)].map fun r => (r.severity, r.count)) = some (1, 1)
    ∧ u.faults.unconfirmed = [⟨.cutoff, 0, some 7⟩]
    ∧ ((reportBegun .armStuck 0 3 merged).faults.aggregate.map fun r => (r.severity, r.count)) = some (3, 1) :=
  ⟨⟨kept_list, by decide +kernel⟩, by decide +kernel⟩
/-- A restart with places free, and one with none where no condition can be reported: what is given its detection time,
and what is judged at once. -/
theorem test_met_WarmRestarts_kept :
    let asleep (s : State) : State := { s with power := .sleep }
    let s := putFault 4 .txFull 1 0 (putFault 3 .armObstructed 1 0 kept)
    (FaultListOk s ∧ 2 ≤ s.faults.places.toList.countP (·.isNone) ∧ s.faults.holds .tankLow 0 = true)
    ∧ (FaultListOk overfull ∧ overfull.cutoffLine = false ∧ overfull.tables.drive.capA.fitted = true)
    ∧ (after .wake (asleep s)).faults.unconfirmed = [⟨.tankLow, 0, some 50001⟩, ⟨.armObstructed, 1, some (1000 * ArmCfg.factory.floatLimit + 1)⟩]
    ∧ (after .wake (asleep s)).faults.holds .txFull 1 = false
    ∧ (after .wake (asleep overfull)).faults.aggregate.map (·.merged) = some [(.armStuck, 0)] :=
  ⟨⟨fault_list_ok _ (by decide +kernel) (by decide +kernel) (by decide +kernel) (by decide +kernel), by decide +kernel⟩,
    ⟨test_met_fault_list_merged, by decide +kernel⟩, by decide +kernel⟩
/-- A known record, a merged one, a free place, a list with a victim at severity 1, and one without at severity 2. -/
theorem test_met_ConditionBegins :
    let known (s : State) (k : Kind) (n : Nat) : Bool := (s.faults.find k n).isSome
    calm.faults.waits .tankLow 0 = false ∧ overfull.faults.waits .tankLow 0 = false ∧ known (filled 1) .signalStale 14 = true
    ∧ overfull.faults.mergedHas .armStuck 0 = true ∧ known overfull .armStuck 0 = false
    ∧ (calm.faults.places[(0 : Fin 15)] = none ∧ known calm .tankLow 0 = false ∧ calm.faults.mergedHas .tankLow 0 = false)
    ∧ (∀ i : Fin 15, (filled 1).faults.places[i] ≠ none ∧ (filled 2).faults.places[i] ≠ none)
    ∧ ((after .cutoffActive (filled 1)).faults.find .signalStale 0 = none ∧ known (after .cutoffActive (filled 1)) .cutoff 0 = true)
    ∧ (after .cutoffActive (filled 2)).faults.mergedHas .cutoff 0 = true := by decide +kernel
/-- A SELF and an ACK record, a merged condition, none; a kept condition whose time has run out. -/
theorem test_met_ConditionEnds :
    let kept : State := { calm with faults := { calm.faults with unconfirmed := [⟨.tankLow, 0, some 0⟩] } }
    ((filled 1).faults.find .signalStale 0).isSome = true ∧ (State.reset.faults.find .storeInvalid 0).isSome = true
    ∧ overfull.faults.mergedHas .armStuck 0 = true ∧ (calm.faults.find .tankLow 0 = none ∧ calm.faults.mergedHas .tankLow 0 = false)
    ∧ kept.power = .running ∧ kept.faults.unconfirmed = [] ++ (⟨.tankLow, 0, some 0⟩ : Unconfirmed) :: []
    ∧ calm.faults.waits .tankLow 0 = false := by decide +kernel

/-! ### The service unit -/

theorem test_ready : ServiceReady calm ∧ ServiceReady (staging []) := by unfold ServiceReady; decide +kernel
/-- A code outside the table, one byte too few, BUSY, NOT_OPEN, an empty frame, a request while a reply waits. -/
theorem test_met_RequestsAreJudged :
    let f (d : List Byte) : Frame := ⟨calm.tables.ports.reqFmt, calm.tables.ports.reqId, d⟩
    (calm.power = .running ∧ calm.ports.c.on = true ∧ calm.ports.c.full = false ∧ calm.service.replies = []
      ∧ calm.service.restart = .clear)
    ∧ isRequestCode 0x0E = false ∧ (f [0x0E, 1]).wf = true ∧ leastLength 0x03 = some 5 ∧ [(1 : Byte), 2].length + 2 < 5
    ∧ (f [0x0C, 1]).wf = true ∧ leastLength 0x0C = some 2 ∧ (shutting none aRecall true).store.op ≠ .idle
    ∧ leastLength 0x05 = some 4 ∧ (f [0x05, 1, 4, 0]).wf = true ∧ calm.store.op = .idle ∧ calm.service.session = false
    ∧ (f [0x05]).wf = true ∧ (f []).wf = true ∧ [(⟨[1], false, none⟩ : Reply)] ≠ [] ∧ RestartMark.left ≠ .clear := by decide +kernel
theorem test_met_SessionOpensAndCloses :
    let park (v : Int) : State := reads .park v calm
    let out : State := putArmIn .sl .working (park 1)
    (calm.service.session = false ∧ calm.gov.state = .held ∧ calm.capture.s.natAbs ≤ 30 ∧ (park 1).role .park = ⟨1, true⟩)
    ∧ ((park 0).role .park = ⟨0, true⟩ ∧ ∀ r ∈ (park 0).faults.records, r.kind ≠ .storeInvalid)
    ∧ (out.tables.arms.arms.get .sl).fitted = true ∧ (out.arms.get .sl).state ≠ .stowed ∧ (staging []).service.session = true
    ∧ (∃ r ∈ State.reset.faults.records, r.kind = .storeInvalid)
    ∧ ({ calm with service := { calm.service with inactivityT := some 0 } } : State).service.inactivityT = some 0 := by
  decide +kernel
/-- Index and chunk at the last accepted value and one beyond, offset 60 and 61. -/
theorem test_met_ReadAndStage :
    let held : State := { calm with service := { calm.service with readBuf := some ⟨.curve, 2, List.replicate 20 7⟩ } }
    Item.ofCode 16 = none ∧ Item.ofCode 0 = none ∧ Item.ofCode 5 = some .curve ∧ Item.curve.count = 12
    ∧ (Item.curve.recordLength - 1) / 5 = 3 ∧ held.service.readBuf = some ⟨.curve, 2, List.replicate 20 7⟩
    ∧ calm.service.readBuf = none ∧ (staging []).service.session = true ∧ (60 : Byte).toNat ≤ 60 ∧ 60 < (61 : Byte).toNat := by
  decide +kernel
theorem test_met_CommitsTakeEffect :
    let at' (b : List Byte) : List Byte := stagedBytes (staging b) b.length
    (Profile.decode (at' Profile.factory.encode) = some Profile.factory ∧ Curve.decode (at' speedCurve.encode) = some speedCurve
      ∧ decodeWindows (at' (encodeWindows Tables.factory.windows)) = some Tables.factory.windows
      ∧ SprayConfig.decode (at' SprayConfig.factory.encode) = some SprayConfig.factory
      ∧ PortConfig.decode (at' PortConfig.factory.encode) = some PortConfig.factory
      ∧ decodeRoles (at' (encodeRoles Tables.factory.roles)) = some Tables.factory.roles)
    ∧ (DriveConfig.decode (at' DriveConfig.factory.encode) = some DriveConfig.factory
      ∧ ArmConfig.decode (at' ArmConfig.factory.encode) = some ArmConfig.factory
      ∧ Template.decode (at' Template.factory.encode) = some Template.factory
      ∧ ChannelCfg.decode (at' intervalCfg.encode) = some intervalCfg
      ∧ MatchEntry.decode (at' MatchEntry.factory.encode) = some MatchEntry.factory
      ∧ SlotCfg.decode (at' SlotCfg.factory.encode) = some SlotCfg.factory)
    ∧ (calm.channels[(0 : Fin 6)].enable = false ∧ calm.channels[(0 : Fin 6)].state = .idle)
    ∧ MatchEntry.factory.voteOk calm.tables.slots = true ∧ slotVoteOk calm.tables 47 SlotCfg.factory = true
    ∧ (∀ k : Fin 24, calm.senders[k] = none) ∧ calm.tables.roles[Role.faultAck.place] ≠ some 47
    ∧ (calm.role .faultAck).value = calm.ackReading := by decide +kernel
/-- A session with staged bytes over a state. -/
def stagingOn (b : List Byte) (s : State) : State := { s with service := (staging b).service }
/-- A COMMIT of DRIVE_CONFIG that leaves no channel fitted, of ARM_CONFIG that makes SL unfitted and SR fitted, and of
MATCH and SLOT where a sender record goes with it. -/
theorem test_met_CommitsTakeEffect_effects :
    let none' : DriveConfig := { DriveConfig.factory with capA := ⟨false, 1000⟩, capB := ⟨false, 1000⟩ }
    let drive := stagingOn none'.encode calm
    let other : ArmConfig := { ArmConfig.factory with arms := ⟨ArmCfg.factory, { ArmCfg.factory with fitted := true }, ArmCfg.factory⟩ }
    let waits := putArmIn .sl .waitUp calm
    let arm := stagingOn other.encode { waits with lift := { waits.lift with queue := [.sl] } }
    let known := putSender 0 (sender 1 (some 5) true) (putSender 1 (sender 2 none false) (putSlot 20 { SlotRun.restarted SlotCfg.factory with status := .fresh } (voted .latest 1)))
    let entry := stagingOn MatchEntry.factory.encode known
    let slot := stagingOn (known.tables.slots[(20 : Fin 48)]).encode known
    (DriveConfig.decode (stagedBytes drive 18) = some none' ∧ ArmConfig.decode (stagedBytes arm 59) = some other
      ∧ drive.capture.noneBegun = false ∧ (after (.commitDriveConfig 1 0) drive).faults.holds .speedNone 0 = true)
    ∧ ((after (.commitArmConfig 1 0) arm).arms.map (·.state), (after (.commitArmConfig 1 0) arm).lift.queue)
      = (⟨.stowed, .init, .stowed⟩, [])
    ∧ (MatchEntry.factory.voteOk known.tables.slots = true ∧ SlotCfg.decode (stagedBytes slot 23) = some known.tables.slots[(20 : Fin 48)]
      ∧ slotVoteOk known.tables 20 known.tables.slots[(20 : Fin 48)] = true ∧ 0 < (known.tables.slots[(20 : Fin 48)]).minFresh)
    ∧ ((after (.commitMatch 1 0) entry).senders = Vector.replicate 24 none
      ∧ (after (.commitMatch 1 0) entry).slots[(20 : Fin 48)].status = .stale)
    ∧ (after (.commitSlot 1 20) slot).senders = Vector.replicate 24 none
    ∧ (after (.commitSlot 1 20) slot).slots[(20 : Fin 48)].status = .never := by decide +kernel
theorem test_lift_circuit_of_a_waiting_arm :
    let waits := putArmIn .sl .waitUp calm
    LiftCircuitOk { waits with lift := { waits.lift with queue := [.sl] } } := by
  refine ⟨by decide +kernel, by decide +kernel, ?_, ?_, by decide +kernel, ?_, ?_⟩ <;> intro a <;> cases a <;> decide +kernel
/-- A record that each item refuses, a vote that disagrees, and a channel in use. -/
theorem test_met_CommitsRefused :
    let direct : MatchEntry := anyEntry .take .direct [bytePick 0 .value 20]
    let ff : List Byte := List.replicate 64 0xFF
    (Item.ofCode 13 = some .capture ∧ Item.ofCode 14 = some .fault ∧ Item.ofCode 15 = some .sender ∧ Item.ofCode 16 = none)
    ∧ (MatchEntry.decode ff = none ∧ SlotCfg.decode (ff.take 23) = none ∧ Profile.decode (ff.take 31) = none
      ∧ Curve.decode (ff.take 20) = none ∧ ArmConfig.decode (ff.take 59) = none ∧ Template.decode ff = none
      ∧ ChannelCfg.decode (ff.take 12) = none)
    ∧ (decodeWindows (ff.take 36) = none ∧ DriveConfig.decode (ff.take 18) = none ∧ SprayConfig.decode (ff.take 8) = none
      ∧ PortConfig.decode (ff.take 12) = none ∧ decodeRoles (List.replicate 18 48) = none)
    ∧ (MatchEntry.decode direct.encode = some direct ∧ direct.voteOk (voted .latest 1).tables.slots = false)
    ∧ slotVoteOk (withEntry direct calm).tables 20 { SlotCfg.factory with vote := .latest } = false
    ∧ (interval enabled intervalCfg justThere).channels[(0 : Fin 6)].enable = true
    ∧ (interval enabled intervalCfg justThere).tables.channels[(0 : Fin 6)].runStart ≤ 0
    ∧ (interval { enabled with enable := false, state := .stalled } intervalCfg justThere).channels[(0 : Fin 6)].state ≠ .idle := by
  decide +kernel
theorem test_met_OtherRequestsAct :
    let s := interval { enabled with state := .sending } intervalCfg justThere
    ((2 : Byte).toNat = 2 ∧ 2 < (3 : Byte).toNat ∧ (5 : Byte).toNat = 5 ∧ 6 ≤ (6 : Byte).toNat ∧ (47 : Byte).toNat < 48
      ∧ 48 ≤ (48 : Byte).toNat ∧ (254 : Byte) ≠ 255)
    ∧ calm.channels[(5 : Fin 6)].enable = false ∧ s.channels[(0 : Fin 6)].enable = true ∧ s.channels[(0 : Fin 6)].state ≠ .idle
    ∧ (staging []).service.session = true ∧ calm.gov.state = .held ∧ calm.capture.s.natAbs ≤ 30
    ∧ ({ calm with capture := { calm.capture with s := -31 } } : State).capture.s.natAbs = 31 := by decide +kernel
/-- The trigger of an IDLE SINGLE channel. -/
theorem test_met_OtherRequestsAct_trigger :
    let s := interval enabled intervalCfg justThere
    let m := s.template s.channels[(0 : Fin 6)].position
    ServiceReady s ∧ (s.channels[(0 : Fin 6)].enable = true ∧ s.channels[(0 : Fin 6)].state = .idle)
    ∧ s.tables.channels[(0 : Fin 6)].sequence = false ∧ s.channels[(0 : Fin 6)].stop = false ∧ m.port = .b
    ∧ 1 ≤ (s.tables.channels[(0 : Fin 6)]).runLen
    ∧ insideWindows s .b m.fmt m.id = true ∧ s.ports.b.on = true ∧ s.ports.b.full = false ∧ m.carriesTop = false
    ∧ (after (.channelControlTrigger 1 0) s).channels[(0 : Fin 6)].out = 1 := by
  unfold ServiceReady; decide +kernel

/-! ### The table store -/

def storing (page : Nat) (deferred : Option (Byte × Byte)) : State :=
  { calm with store := ⟨false, .storing (aStore page)⟩, service := { calm.service with deferred := deferred } }
theorem test_met_StoreRuns :
    calm.power = .running ∧ RecordPagesOk calm ∧ (staging []).tables.image.length = 0
    ∧ (storing 1 none).store.op = .storing (aStore 1) ∧ (aStore 1).timer = some 4000 ∧ (aStore 1).page ≠ 0 ∧ (aStore 0).page = 0
    ∧ (storing 0 none).service.deferred = none ∧ (storing 0 (some (6, 2))).service.deferred = some (6, 2)
    ∧ calm.service.replies = [] ∧ calm.ports.c.on = true ∧ calm.ports.c.full = false := by
  unfold RecordPagesOk; decide +kernel
/-- A part whose tables all differ from the factory defaults, so that its image is too long: the STORE fails at once. -/
theorem test_met_StoreRuns_too_long :
    let t : Template := { Template.factory with len := 1 }
    let e : MatchEntry := { MatchEntry.factory with minLen := 1 }
    let full : Tables := { Tables.factory with templates := Vector.replicate 32 t, entries := Vector.replicate 96 e }
    6336 < full.image.length := by decide +kernel
def recalling (n page : Nat) (nvm : Nvm) : State :=
  let r : RecallRun := { length := n, page := page, sum := 0, timer := some 1000 }
  { calm with nvm := nvm, store := ⟨true, .recalling r⟩ }
/-- A blank header, a length of one page, the page before the last and the last, a valid and an invalid image. -/
theorem test_met_RecallRuns :
    let long : Nvm := { header := .written ⟨.std, 0x6E2, .std, 0x6E3, 0, 65, 0⟩, cells := [] }
    calm.power = .running ∧ calm.nvm.header.length? = none ∧ long.header.length? = some 65 ∧ 65 ≠ 0
    ∧ 1 < (65 + 63) / 64 ∧ (65 + 63) / 64 ≤ 2 ∧ (recalling 65 2 long).service.deferred = none
    ∧ factoryImage.header.length? = some 0
    ∧ (recalling 65 2 long).nvm.load 0 = none ∧ (recalling 0 1 factoryImage).nvm.load 0 = some Tables.factory
    ∧ calm.service.replies = [] ∧ calm.ports.c.on = true ∧ calm.ports.c.full = false
    ∧ (Tables.factory.arms.arms.get .sl).fitted = (calm.tables.arms.arms.get .sl).fitted
    ∧ (calm.arms.get .sl).state ≠ .faulted ∧ calm.channels[(0 : Fin 6)].state = .idle := by decide +kernel
/-- An operation in flight carries its deferred reply: it is sent with the end, be it good or bad. -/
theorem test_met_deferred_replies :
    let owed (c : Byte) (s : State) : State := { s with service := { s.service with deferred := some (c, 2) } }
    let bad : Nvm := { header := .written ⟨.std, 0x6E2, .std, 0x6E3, 0, 65, 0⟩, cells := [] }
    let reply (c : Instr) (s : State) : Option (List Byte) := (lastReply (after c s)).map fun b => (b.drop 1).take 2
    [reply .storeCompletion (storing 0 (some (6, 2))), reply (.storePageStep true) (storing 0 (some (6, 2))),
     reply .recallPageRead (owed 7 (recalling 0 1 factoryImage)), reply .recallCompletion (owed 7 (recalling 0 1 factoryImage))]
      = List.replicate 4 (some [2, BitVec.ofNat 8 Status.ok.code])
    ∧ [reply (.storePageStep false) (storing 0 (some (6, 2))), reply (.storePageStep false) (storing 1 (some (6, 2))),
       reply .recallPageRead (owed 7 (recalling 65 2 bad)), reply .recallCompletion (owed 7 (recalling 65 2 bad))]
      = List.replicate 4 (some [2, BitVec.ofNat 8 Status.storeFail.code])
    ∧ (recalling 65 2 bad).nvm.load 0 = none ∧ (after (.storePageStep false) (storing 1 (some (6, 2)))).nvm.header = .blank := by
  decide +kernel
theorem test_met_RecordBytesReadBack :
    (SlotCfg.decode SlotCfg.factory.encode = some SlotCfg.factory ∧ SlotCfg.factory.encode.length = 23)
    ∧ (encodeRoles Tables.factory.roles).length = 18 ∧ Profile.factory.encode.length = 31 ∧ speedCurve.encode.length = 20
    ∧ ArmConfig.factory.encode.length = 59 ∧ intervalCfg.encode.length = 12 ∧ (encodeWindows Tables.factory.windows).length = 36
    ∧ DriveConfig.factory.encode.length = 18 ∧ SprayConfig.factory.encode.length = 8 ∧ PortConfig.factory.encode.length = 12 := by
  decide +kernel

end Sys2Proof.Tests
end

section
/-! SUPPORT. The fields that the signal store (02) lives in, and every operation outside it, which leaves them. -/

namespace Sys2Proof.Signals
open Sys2Proof Sys2Proof.Machine

/-! ## What the signal invariant reads

`signals` names the fields that slots, sender records and their configuration live in. Every operation outside the signal
store, the COMMITs and the restarts leaves them, one lemma per operation. -/

/-- The working tables, the slots and the sender records. -/
def signals (s : State) : Tables × Vector SlotRun 48 × Vector (Option SenderRec) 24 := (s.tables, s.slots, s.senders)

theorem signals_ite {c : Prop} [Decidable c] {s t u : State} (h : signals t = signals s) (k : signals u = signals s) :
    signals (if c then t else u) = signals s := by split <;> assumption

theorem signals_foldl {α : Type} {f : State → α → State} (h : ∀ s a, signals (f s a) = signals s) (l : List α) (s : State) :
    signals (l.foldl f s) = signals s := foldl_field signals f h l s

theorem signals_of_ends {s t : State} (h : Ends s t) : signals t = signals s := by unfold Ends at h; rw [h]; rfl

/-! ### Reports, the level, the end of an event -/

theorem reportBegun_signals (k n sev) (s : State) : signals (reportBegun k n sev s) = signals s :=
  signals_of_ends (reportBegun_reports k n sev s).ends
theorem reportEnded_signals (k n) (s : State) : signals (reportEnded k n s) = signals s :=
  signals_of_ends (reportEnded_reports k n s).ends
theorem reportEndedIf_signals (b k n) (s : State) : signals (reportEndedIf b k n s) = signals s :=
  signals_of_ends (reportEndedIf_reports b k n s).ends
theorem reportOnce_signals (k n sev) (s : State) : signals (reportOnce k n sev s) = signals s :=
  signals_of_ends (reportOnce_reports k n sev s).ends
theorem enterHeld_signals (s : State) : signals (enterHeld s) = signals s := signals_of_ends (enterHeld_publishes s).ends
theorem formLevel_signals (s : State) : signals (formLevel s) = signals s := signals_of_ends (formLevel_publishes s).ends
theorem closeBanks_signals (c) (s : State) : signals (closeBanks c s) = signals s :=
  signals_of_ends (closeBanks_publishes c s).ends
theorem completeAll_signals (s : State) : signals (completeAll s) = signals s := signals_of_ends (completeAll_ends s)
theorem finish_signals (s : State) : signals (finish s) = signals s := signals_of_ends (finish_ends s)

theorem unfaultArm_signals (s : State) (a) : signals (unfaultArm s a) = signals s := signals_ite rfl rfl
theorem acknowledge_signals (s : State) : signals (acknowledge s) = signals s := signals_foldl unfaultArm_signals _ _
theorem weighAck_signals (s : State) : signals (weighAck s) = signals s := signals_ite (acknowledge_signals _) rfl

/-! ### Ports, replies and sends -/

theorem forward_signals (q f) (s : State) : signals (forward q f s) = signals s :=
  signals_ite rfl (signals_ite (reportBegun_signals _ _ _ _) (reportEnded_signals _ _ _))
theorem forwardAction_signals (e q f) (s : State) : signals (forwardAction e q f s) = signals s := by
  unfold forwardAction; split
  · exact forward_signals _ _ _
  · exact forward_signals _ _ _
  · rfl
  · rfl
  · split <;> exact forward_signals _ _ _
theorem placeReply_signals (s : State) : signals (placeReply s) = signals s := by unfold placeReply; split <;> rfl
theorem countReply_signals (s : State) : signals (countReply s) = signals s := by unfold countReply; split <;> rfl
theorem holdReply_signals (s : State) : signals (holdReply s) = signals s := by unfold holdReply; split <;> rfl
theorem offerReply_signals (s : State) : signals (offerReply s) = signals s :=
  signals_ite rfl (signals_ite (countReply_signals s) (signals_ite (holdReply_signals s) (placeReply_signals s)))
theorem offerReplies_signals (s : State) : signals (offerReplies s) = signals s :=
  signals_ite (offerReply_signals s) ((offerReply_signals _).trans (offerReply_signals s))
theorem makeReply_signals (r) (s : State) : signals (makeReply r s) = signals s := signals_ite rfl (offerReply_signals _)
theorem deferredReply_signals (st) (s : State) : signals (deferredReply st s) = signals s := by
  unfold deferredReply; split
  · rfl
  · exact makeReply_signals _ _
theorem recordLeft_signals (s : State) (r) : signals (recordLeft s r) = signals s := by unfold recordLeft; split <;> rfl
theorem restartReplyLeft_signals (q r) (s : State) : signals (restartReplyLeft q r s) = signals s := signals_ite rfl rfl
theorem continueSend_signals (ch) (s : State) : signals (continueSend ch s) = signals s :=
  signals_of_ends (continueSend_sends ch s).ends
theorem handPlace_signals (q) (s : State) : signals (handPlace q s) = signals s := by
  unfold handPlace; dsimp only; split
  · split
    · rfl
    · split
      · exact (continueSend_signals _ _).trans (signals_of_ends (placeChannelFrame_sends _ _ _ _).ends)
      · exact offerReplies_signals _
  · rfl
theorem releaseHolder_signals (s : State) (h) : signals (releaseHolder s h) = signals s := by
  unfold releaseHolder; split
  · exact continueSend_signals _ _
  · exact (countReply_signals _).trans (countReply_signals _)
theorem frameSentBody_signals (q r) (s : State) : signals (frameSentBody q r s) = signals s :=
  (completeAll_signals _).trans ((handPlace_signals q _).trans ((restartReplyLeft_signals _ _ _).trans
    (recordLeft_signals _ _)))
theorem linkLostBody_signals (q) (s : State) : signals (linkLostBody q s) = signals s :=
  (completeAll_signals _).trans <|
    (signals_foldl (fun s h => (formLevel_signals _).trans (releaseHolder_signals s h)) _ _).trans <|
    (formLevel_signals _).trans <| (reportBegun_signals _ _ _ _).trans <|
    signals_foldl (fun s r => (restartReplyLeft_signals q r _).trans (recordLeft_signals s r)) _ _
theorem linkRestoredBody_signals (q) (s : State) : signals (linkRestoredBody q s) = signals s := reportEnded_signals _ _ _
theorem giveTrigger_signals (ch) (s : State) : signals (giveTrigger ch s) = signals s :=
  signals_of_ends (giveTrigger_sends ch s).ends
theorem intervalExpired_signals (ch) (s : State) : signals (intervalExpired ch s) = signals s := giveTrigger_signals _ _

/-! ### Speed capture -/

theorem disagreementTest_signals (s : State) : signals (disagreementTest s) = signals s :=
  signals_ite (signals_ite rfl rfl) (reportEndedIf_signals _ _ _ _)
theorem speedNoneTest_signals (s : State) : signals (speedNoneTest s) = signals s :=
  signals_ite (reportBegun_signals _ _ _ _) (reportEndedIf_signals _ _ _ _)
theorem lossReturnTest_signals (ch) (s : State) : signals (lossReturnTest ch s) = signals s := rfl
theorem captureUpdate_signals (s : State) : signals (captureUpdate s) = signals s :=
  (speedNoneTest_signals _).trans <| (lossReturnTest_signals _ _).trans <| (lossReturnTest_signals _ _).trans <|
    disagreementTest_signals _
theorem edge_signals (ch d c) (s : State) : signals (edge ch d c s) = signals s := by
  unfold edge; dsimp only; split
  · rfl
  · split
    · rfl
    · exact captureUpdate_signals _
theorem standstillExpired_signals (ch) (s : State) : signals (standstillExpired ch s) = signals s := captureUpdate_signals _
theorem windowExpired_signals (ch) (s : State) : signals (windowExpired ch s) = signals s := captureUpdate_signals _
theorem disagreementExpired_signals (s : State) : signals (disagreementExpired s) = signals s := reportBegun_signals _ _ _ _
theorem lossExpired_signals (ch) (s : State) : signals (lossExpired ch s) = signals s :=
  (captureUpdate_signals _).trans (reportBegun_signals _ _ _ _)
theorem returnExpired_signals (ch) (s : State) : signals (returnExpired ch s) = signals s :=
  (captureUpdate_signals _).trans (reportEnded_signals _ _ _)
theorem resetCapture_signals (s : State) : signals (resetCapture s) = signals s :=
  (captureUpdate_signals _).trans <| (reportEnded_signals _ _ _).trans <| (reportEnded_signals _ _ _).trans <|
    reportEnded_signals _ _ _

/-! ### Profile selector and governor -/

theorem onGov_signals (f) (s : State) : signals (onGov f s) = signals s := rfl
theorem selectorStage_signals (s : State) : signals (selectorStage s) = signals s := by
  unfold selectorStage; dsimp only; split
  · exact signals_ite rfl rfl
  · rfl
theorem enterNeutral_signals (s : State) : signals (enterNeutral s) = signals s := reportEndedIf_signals _ _ _ _
theorem beginStop_signals (i) (s : State) : signals (beginStop i s) = signals s :=
  signals_ite (reportBegun_signals _ _ _ _) rfl
theorem weighState_signals (i) (s : State) : signals (weighState i s) = signals s := by
  refine signals_ite (enterHeld_signals s) ?_
  split
  · exact signals_ite (enterHeld_signals s) (signals_ite rfl (enterNeutral_signals s))
  · exact signals_ite (beginStop_signals _ _) rfl
  · exact signals_ite (beginStop_signals _ _) rfl
  · rfl
  · exact signals_ite (enterNeutral_signals s) (enterHeld_signals s)
theorem endStage_signals (i) (s : State) : signals (endStage i s) = signals s := by
  refine signals_ite ?_ rfl
  split
  · exact signals_ite (enterHeld_signals s) (enterNeutral_signals s)
  · exact signals_ite (enterNeutral_signals s) rfl
  · exact signals_ite (enterNeutral_signals s) rfl
  · rfl
  · rfl
theorem engineWatch_signals (i) (s : State) : signals (engineWatch i s) = signals s :=
  signals_ite (reportEnded_signals _ _ _) rfl
theorem overspeedBegins_signals (s : State) : signals (overspeedBegins s) = signals s := reportBegun_signals _ _ _ _
theorem overspeedWatch_signals (i) (s : State) : signals (overspeedWatch i s) = signals s :=
  signals_ite (signals_ite (overspeedBegins_signals _) rfl) (reportEndedIf_signals _ _ _ _)
theorem governorStages_signals (i) (s : State) : signals (governorStages i s) = signals s :=
  have weighed : signals (onGov (cruiseStage i) (weighState i (lockStage i s))) = signals s := weighState_signals i _
  (overspeedWatch_signals _ _).trans <| (engineWatch_signals _ _).trans <| (endStage_signals _ _).trans <|
    signals_ite weighed weighed
theorem governorBody_signals (s : State) : signals (governorBody s) = signals s :=
  (governorStages_signals _ _).trans <| (onGov_signals _ _).trans <| (selectorStage_signals _).trans (onGov_signals _ s)

/-! ### Arms -/

theorem leaveQueue_signals (a) (s : State) : signals (leaveQueue a s) = signals s := reportEnded_signals _ _ _
theorem shutdownFreezeArm_signals (l) (s : State) (a) : signals (shutdownFreezeArm l s a) = signals s :=
  signals_ite ((reportEnded_signals _ _ _).trans (reportEnded_signals _ _ _)) rfl
theorem startShutdown_signals (s : State) : signals (startShutdown s) = signals s :=
  (closeBanks_signals _ _).trans <| (signals_foldl (shutdownFreezeArm_signals _) _ _).trans <| enterHeld_signals _
theorem clearObstruction_signals (a) (s : State) : signals (clearObstruction a s) = signals s :=
  signals_ite (reportEnded_signals _ _ _) rfl
theorem tryJoin_signals (a up o) (s : State) : signals (tryJoin a up o s) = signals s := signals_ite rfl rfl
theorem turnBack_signals (a st) (s : State) : signals (turnBack a st s) = signals s := leaveQueue_signals a s
theorem turnUp_signals (a) (s : State) : signals (turnUp a s) = signals s := by
  unfold turnUp; split
  · exact turnBack_signals _ _ _
  all_goals exact signals_ite (turnBack_signals _ _ _) rfl
theorem turnDown_signals (a) (s : State) : signals (turnDown a s) = signals s := by
  unfold turnDown; split
  · exact turnBack_signals _ _ _
  all_goals exact signals_ite (turnBack_signals _ _ _) rfl
theorem enterFloat_signals (a) (s : State) : signals (enterFloat a s) = signals s := signals_ite rfl rfl
theorem leaveFloat_signals (a) (s : State) : signals (leaveFloat a s) = signals s := signals_ite rfl rfl
theorem onRoad_signals (a) {w} (h : ∀ a s, signals (w a s) = signals s) (s : State) : signals (onRoad a w s) = signals s :=
  signals_ite rfl (h _ _)
theorem rejoinArm_signals (s : State) (a) : signals (rejoinArm s a) = signals s :=
  signals_of_ends (rejoinArm_publishes s a).ends
theorem transition_signals (a) (s : State) : signals (transition a s) = signals s := by
  unfold transition; dsimp only; split
  · exact signals_ite (signals_ite rfl (tryJoin_signals _ _ _ _)) rfl
  · exact signals_ite (tryJoin_signals _ _ _ _) rfl
  · exact signals_ite rfl (turnUp_signals _ _)
  · exact signals_ite (turnDown_signals _ _) rfl
  · exact signals_ite rfl rfl
  · exact signals_ite rfl rfl
  · exact onRoad_signals _ enterFloat_signals _
  · exact onRoad_signals _ leaveFloat_signals _
  · exact rejoinArm_signals _ _
  · rfl
theorem armStage_signals (s : State) (a) : signals (armStage s a) = signals s :=
  signals_ite ((transition_signals _ _).trans (clearObstruction_signals a _)) rfl
theorem weighGrant_signals (s : State) : signals (weighGrant s) = signals s := by
  unfold weighGrant; split
  · rfl
  · exact signals_ite (leaveQueue_signals _ s) rfl
theorem banksFollowArms_signals (s : State) : signals (banksFollowArms s) = signals s := closeBanks_signals _ _
theorem armPeriodBody_signals (s : State) : signals (armPeriodBody s) = signals s :=
  (banksFollowArms_signals _).trans <| (signals_foldl (f := commandStage) (fun _ _ => rfl) _ _).trans <|
    (weighGrant_signals _).trans <| signals_foldl armStage_signals _ _
theorem motionExpired_signals (a) (s : State) : signals (motionExpired a s) = signals s :=
  (weighGrant_signals _).trans <| (banksFollowArms_signals _).trans <| reportOnce_signals _ _ _ _
theorem floatExpired_signals (a) (s : State) : signals (floatExpired a s) = signals s := reportBegun_signals _ _ _ _
theorem waitExpired_signals (a) (s : State) : signals (waitExpired a s) = signals s := reportBegun_signals _ _ _ _
theorem unfitArm_signals (a) (s : State) : signals (unfitArm a s) = signals s :=
  (reportEnded_signals _ _ _).trans <| (reportEnded_signals _ _ _).trans <| leaveQueue_signals a s
theorem actOnFitted_signals (o) (s : State) : signals (actOnFitted o s) = signals s := by
  refine (banksFollowArms_signals _).trans (signals_foldl (fun s a => ?_) _ _)
  split
  · exact unfitArm_signals _ _
  all_goals rfl

/-! ### Doser, cut-off, power -/

theorem lowCheck_signals (s : State) : signals (lowCheck s) = signals s :=
  signals_ite (signals_ite (signals_ite (reportBegun_signals _ _ _ _) rfl) (signals_ite (reportEndedIf_signals _ _ _ _) rfl)) rfl
theorem dryCheck_signals (s : State) : signals (dryCheck s) = signals s :=
  signals_ite (reportBegun_signals _ _ _ _) (reportEndedIf_signals _ _ _ _)
theorem sprayBody_signals (s : State) : signals (sprayBody s) = signals s := by
  have tank (u : State) : signals (dryCheck (lowCheck u)) = signals u := (dryCheck_signals _).trans (lowCheck_signals u)
  refine Eq.trans ?_ (tank (onSpray (fun p => { p with timer := msTimer Config.sprayPeriodMs }) s))
  unfold sprayBody
  dsimp only
  generalize dryCheck _ = u
  rfl
theorem weighRelease_signals (s : State) : signals (weighRelease s) = signals s :=
  signals_ite (reportEnded_signals _ _ _) rfl
theorem cutoffActiveBody_signals (s : State) : signals (cutoffActiveBody s) = signals s :=
  signals_ite rfl (reportBegun_signals _ _ _ _)
theorem cutoffInactiveBody_signals (s : State) : signals (cutoffInactiveBody s) = signals s :=
  signals_ite (weighRelease_signals _) rfl
theorem failedStep_signals (p) (s : State) : signals (failedStep p s) = signals s := by
  unfold failedStep; split
  · rfl
  · simp only [failedPage, signals]
theorem losePower_signals (s : State) : signals (losePower s) = signals s := by
  unfold losePower; dsimp only; split
  · exact failedStep_signals _ _
  · rfl
  · rfl

/-! ### The table store and the service unit -/

theorem startStore_signals (s : State) : signals (startStore s) = signals s := signals_ite (deferredReply_signals _ _) rfl
theorem storeDone_signals (r) (s : State) : signals (storeDone r s) = signals s :=
  (deferredReply_signals _ _).trans (reportEnded_signals _ _ _)
theorem storeStep_signals (b r) (s : State) : signals (storeStep b r s) = signals s :=
  signals_ite (signals_ite (storeDone_signals _ _) rfl) ((deferredReply_signals _ _).trans (failedStep_signals _ _))
theorem answer_signals (c t st d) (s : State) : signals (answer c t st d s) = signals s := makeReply_signals _ _
theorem openConfig_signals (s : State) : signals (openConfig s).2 = signals s := by
  unfold openConfig
  split
  · rfl
  · split
    · rfl
    · split
      · rfl
      · exact enterHeld_signals _
theorem readItem_signals (c i k) (s : State) : signals (readItem c i k s).2.2 = signals s := by
  unfold readItem readKind
  split
  · split
    · split
      · rfl
      · split
        · split <;> rfl
        · rfl
    · rfl
  · rfl
theorem channelControl_signals (c a) (s : State) : signals (channelControl c a s).2 = signals s := by
  unfold channelControl
  split
  case h_3 => exact giveTrigger_signals _ _
  all_goals rfl
theorem restartRequest_signals (c t) (s : State) : signals (restartRequest c t s) = signals s :=
  signals_ite (makeReply_signals _ _) (answer_signals _ _ _ _ _)

end Sys2Proof.Signals
end

section
/-! SUPPORT. Slots, sender records and votes (02 R34 to R36): what a recompute makes of the slot it votes, and what of the
other fields it may change. -/

namespace Sys2Proof.Signals
open Sys2Proof Sys2Proof.Machine

/-! ## Slots, sender records and votes -/

theorem tables_of_signals {s t : State} (h : signals t = signals s) : t.tables = s.tables := congrArg Prod.fst h
theorem slots_of_signals {s t : State} (h : signals t = signals s) : t.slots = s.slots := congrArg (·.2.1) h
theorem senders_of_signals {s t : State} (h : signals t = signals s) : t.senders = s.senders := congrArg (·.2.2) h

@[simp] theorem reportBegun_slots (k n sev) (s : State) : (reportBegun k n sev s).slots = s.slots :=
  slots_of_signals (reportBegun_signals ..)
@[simp] theorem reportEnded_slots (k n) (s : State) : (reportEnded k n s).slots = s.slots :=
  slots_of_signals (reportEnded_signals ..)
@[simp] theorem reportEndedIf_slots (b k n) (s : State) : (reportEndedIf b k n s).slots = s.slots :=
  slots_of_signals (reportEndedIf_signals ..)

theorem reportBegun_senders (k n sev) (s : State) : (reportBegun k n sev s).senders = s.senders :=
  senders_of_signals (reportBegun_signals ..)
theorem reportEnded_tables (k n) (s : State) : (reportEnded k n s).tables = s.tables :=
  tables_of_signals (reportEnded_signals ..)

/-- Only slots, supervisor and the event's marks differ: what the recompute of a voted slot does. -/
def Votes (s t : State) : Prop := t = { s with slots := t.slots, faults := t.faults, ev := t.ev }

theorem Votes.refl (s : State) : Votes s s := rfl
theorem Votes.trans {s t u : State} (h : Votes s t) (k : Votes t u) : Votes s u := by
  unfold Votes at *; rw [k, h]
theorem Votes.of_reports {s t : State} (h : Reports s t) : Votes s t := by unfold Reports at h; unfold Votes; rw [h]
theorem Votes.tables {s t : State} (h : Votes s t) : t.tables = s.tables := by unfold Votes at h; rw [h]
theorem Votes.senders {s t : State} (h : Votes s t) : t.senders = s.senders := by unfold Votes at h; rw [h]

theorem onSlot_votes (n f) (s : State) : Votes s (onSlot n f s) := rfl

/-- The fresh records of a slot follow from the sender table. -/
theorem freshSenders_congr {s t : State} (h : t.senders = s.senders) (n : Fin 48) : freshSenders t n = freshSenders s n := by
  unfold freshSenders; rw [h]

theorem mem_freshSenders {s : State} {n : Fin 48} {r : SenderRec} :
    r ∈ freshSenders s n ↔ (∃ i : Fin 24, s.senders[i] = some r) ∧ r.slot = n ∧ r.fresh = true ∧ r.last.isSome = true := by
  unfold freshSenders
  simp only [List.mem_filterMap, Option.filter_eq_some_iff, Bool.and_eq_true, beq_iff_eq, Vector.mem_toList_iff]
  constructor
  · rintro ⟨o, ho, rfl, ⟨a, b⟩, c⟩
    obtain ⟨i, hi, e⟩ := Vector.getElem_of_mem ho
    exact ⟨⟨⟨i, hi⟩, e⟩, a, b, c⟩
  · rintro ⟨⟨i, e⟩, a, b, c⟩
    exact ⟨some r, e ▸ Vector.getElem_mem i.isLt, rfl, ⟨a, b⟩, c⟩

/-! ### The vote (R35) -/

/-- LATEST takes a record that no other was written after. -/
theorem latest_of_foldl (rs : List SenderRec) (r : SenderRec) :
    (rs.foldl (fun b q => if b.written < q.written then q else b) r) ∈ r :: rs
    ∧ ∀ p ∈ r :: rs, p.written ≤ (rs.foldl (fun b q => if b.written < q.written then q else b) r).written := by
  induction rs generalizing r with
  | nil => simp
  | cons q rs ih =>
    rw [List.foldl_cons]
    split
    · next later =>
      obtain ⟨m, le⟩ := ih q
      have := le q (by simp)
      exact ⟨List.mem_cons_of_mem _ m, List.forall_mem_cons.2 ⟨by omega, le⟩⟩
    · next earlier =>
      obtain ⟨m, le⟩ := ih r
      obtain ⟨ler, les⟩ := List.forall_mem_cons.1 le
      refine ⟨?_, List.forall_mem_cons.2 ⟨ler, List.forall_mem_cons.2 ⟨by omega, les⟩⟩⟩
      rcases List.mem_cons.1 m with e | m
      · rw [e]; exact List.mem_cons_self
      · exact List.mem_cons_of_mem _ (List.mem_cons_of_mem _ m)

/-- The greatest of a value and those of a list. -/
theorem highest_of_foldl (rs : List SenderRec) (x : Int) :
    x ≤ rs.foldl (fun b q => max b q.value) x ∧ (∀ p ∈ rs, p.value ≤ rs.foldl (fun b q => max b q.value) x)
    ∧ (rs.foldl (fun b q => max b q.value) x = x ∨ ∃ p ∈ rs, rs.foldl (fun b q => max b q.value) x = p.value) := by
  induction rs generalizing x with
  | nil => simp
  | cons q rs ih =>
    obtain ⟨a, b, c⟩ := ih (max x q.value)
    rw [List.foldl_cons]
    refine ⟨by omega, List.forall_mem_cons.2 ⟨by omega, b⟩, ?_⟩
    rcases c with c | ⟨p, m, e⟩
    · rcases max_choice x q.value with h | h
      · exact .inl (c.trans h)
      · exact .inr ⟨q, List.mem_cons_self, c.trans h⟩
    · exact .inr ⟨p, List.mem_cons_of_mem _ m, e⟩

/-- The least of a value and those of a list. -/
theorem lowest_of_foldl (rs : List SenderRec) (x : Int) :
    rs.foldl (fun b q => min b q.value) x ≤ x ∧ (∀ p ∈ rs, rs.foldl (fun b q => min b q.value) x ≤ p.value)
    ∧ (rs.foldl (fun b q => min b q.value) x = x ∨ ∃ p ∈ rs, rs.foldl (fun b q => min b q.value) x = p.value) := by
  induction rs generalizing x with
  | nil => simp
  | cons q rs ih =>
    obtain ⟨a, b, c⟩ := ih (min x q.value)
    rw [List.foldl_cons]
    refine ⟨by omega, List.forall_mem_cons.2 ⟨by omega, b⟩, ?_⟩
    rcases c with c | ⟨p, m, e⟩
    · rcases min_choice x q.value with h | h
      · exact .inl (c.trans h)
      · exact .inr ⟨q, List.mem_cons_self, c.trans h⟩
    · exact .inr ⟨p, List.mem_cons_of_mem _ m, e⟩

theorem voteOf_latest {l : List SenderRec} (h : l ≠ []) :
    ∃ p ∈ l, voteOf .latest l = p.value ∧ ∀ p' ∈ l, p'.written ≤ p.written := by
  obtain ⟨r, rs, rfl⟩ := List.exists_cons_of_ne_nil h
  obtain ⟨m, le⟩ := latest_of_foldl rs r
  exact ⟨_, m, rfl, le⟩

theorem voteOf_highest {l : List SenderRec} (h : l ≠ []) :
    (∃ p ∈ l, voteOf .highest l = p.value) ∧ ∀ p ∈ l, p.value ≤ voteOf .highest l := by
  obtain ⟨r, rs, rfl⟩ := List.exists_cons_of_ne_nil h
  obtain ⟨first, rest, hit⟩ := highest_of_foldl rs r.value
  refine ⟨?_, List.forall_mem_cons.2 ⟨first, rest⟩⟩
  rcases hit with e | ⟨p, m, e⟩
  · exact ⟨r, List.mem_cons_self, e⟩
  · exact ⟨p, List.mem_cons_of_mem _ m, e⟩

/-- Every policy but LATEST and HIGHEST takes the lowest value. -/
theorem voteOf_lowest {v : Vote} {l : List SenderRec} (h : l ≠ []) (nl : v ≠ .latest) (nh : v ≠ .highest) :
    (∃ p ∈ l, voteOf v l = p.value) ∧ ∀ p ∈ l, voteOf v l ≤ p.value := by
  obtain ⟨r, rs, rfl⟩ := List.exists_cons_of_ne_nil h
  have e : voteOf v (r :: rs) = rs.foldl (fun b q => min b q.value) r.value := by
    cases v <;> first | rfl | contradiction
  obtain ⟨first, rest, hit⟩ := lowest_of_foldl rs r.value
  rw [e]
  refine ⟨?_, List.forall_mem_cons.2 ⟨first, rest⟩⟩
  rcases hit with e | ⟨p, m, e⟩
  · exact ⟨r, List.mem_cons_self, e⟩
  · exact ⟨p, List.mem_cons_of_mem _ m, e⟩

/-- The vote is the value of one of the records. -/
theorem voteOf_mem (v : Vote) {l : List SenderRec} (h : l ≠ []) : ∃ p ∈ l, voteOf v l = p.value := by
  by_cases nl : v = .latest
  · obtain ⟨p, m, e, -⟩ := voteOf_latest h
    exact ⟨p, m, nl ▸ e⟩
  · by_cases nh : v = .highest
    · exact nh ▸ (voteOf_highest h).1
    · exact (voteOf_lowest h nl nh).1

/-- AGREE: two records lie further apart than the tolerance exactly when the values disagree (R36). -/
theorem disagrees_of_apart {tol : Nat} {l : List SenderRec} {p q : SenderRec} (hp : p ∈ l) (hq : q ∈ l)
    (apart : tol < (p.value - q.value).natAbs) : disagrees tol l = true := by
  induction l with
  | nil => cases hp
  | cons r rs ih =>
    unfold disagrees
    rw [Bool.or_eq_true, List.any_eq_true]
    rcases List.mem_cons.1 hp with ep | mp <;> rcases List.mem_cons.1 hq with eq | mq
    · rw [ep, eq] at apart; omega
    · exact .inl ⟨q, mq, by simpa [ep] using apart⟩
    · exact .inl ⟨p, mp, decide_eq_true (by rw [eq] at apart; omega)⟩
    · exact .inr (ih mp mq)

/-! ### The recompute of a voted slot (R34 to R36) -/

/-- A voted slot after its status is decided from the number of its fresh records. -/
def decidedRun (c : SlotCfg) (fresh : List SenderRec) (r : SlotRun) : SlotRun :=
  if c.minFresh ≤ fresh.length then { r with status := .fresh, timer := none }
  else match r.status with
    | .fresh => { r with status := .stale }
    | .never | .stale => r

/-- A voted slot after its recompute. -/
def votedRun (c : SlotCfg) (fresh : List SenderRec) (r : SlotRun) : SlotRun :=
  if (decidedRun c fresh r).status = .fresh then { decidedRun c fresh r with last := voteOf c.vote fresh }
  else decidedRun c fresh r

theorem votedRun_enough {c : SlotCfg} {fresh : List SenderRec} (r : SlotRun) (h : c.minFresh ≤ fresh.length) :
    votedRun c fresh r = { r with status := .fresh, timer := none, last := voteOf c.vote fresh } := by
  simp [votedRun, decidedRun, h]

theorem votedRun_few {c : SlotCfg} {fresh : List SenderRec} (r : SlotRun) (h : fresh.length < c.minFresh) :
    votedRun c fresh r = { r with status := if r.status = .fresh then .stale else r.status } := by
  have few : ¬ c.minFresh ≤ fresh.length := by omega
  obtain ⟨status, _, _, _, _, _⟩ := r
  cases status <;> simp [votedRun, decidedRun, few]

theorem decideStatus_votes (n) (s : State) : Votes s (decideStatus n s) := by
  unfold decideStatus; dsimp only; split
  · exact (onSlot_votes _ _ _).trans (.of_reports (reportEndedIf_reports _ _ _ _))
  · split
    · exact (onSlot_votes _ _ _).trans (.of_reports (reportBegun_reports _ _ _ _))
    · exact .refl s
    · exact .refl s

theorem decideStatus_slots (n : Fin 48) (s : State) :
    (decideStatus n s).slots = s.slots.set n (decidedRun s.tables.slots[n] (freshSenders s n) s.slots[n]) := by
  unfold decideStatus decidedRun; dsimp only; split
  · simp
  · split <;> simp_all [staleBegun]

/-- The recompute up to its report of disagreement: the status is decided and a FRESH slot takes the vote. -/
def revote (n : Fin 48) (s : State) : State :=
  if (decideStatus n s).slots[n].status = .fresh then
    onSlot n (fun r => { r with last := voteOf s.tables.slots[n].vote (freshSenders s n) }) (decideStatus n s)
  else decideStatus n s

theorem revote_votes (n) (s : State) : Votes s (revote n s) := by
  unfold revote; split
  · exact (decideStatus_votes n s).trans (onSlot_votes _ _ _)
  · exact decideStatus_votes n s

theorem revote_slots (n : Fin 48) (s : State) :
    (revote n s).slots = s.slots.set n (votedRun s.tables.slots[n] (freshSenders s n) s.slots[n]) := by
  have decided : (decideStatus n s).slots[n] = decidedRun s.tables.slots[n] (freshSenders s n) s.slots[n] := by
    simp [decideStatus_slots]
  unfold revote votedRun
  rw [decided]
  split
  · rw [onSlot_slots, decided, decideStatus_slots, Vector.set_set]
  · exact decideStatus_slots n s

theorem recompute_none {n : Fin 48} {s : State} (h : s.tables.slots[n].vote = .none) : recompute n s = s := by
  unfold recompute; exact if_pos h

theorem recompute_eq {n : Fin 48} {s : State} (h : s.tables.slots[n].vote ≠ .none) :
    recompute n s =
      if s.tables.slots[n].vote = .agree then
        if disagrees s.tables.slots[n].tolerance (freshSenders s n) then
          reportBegun .signalDisagree n.val s.tables.slots[n].severity (revote n s)
        else reportEnded .signalDisagree n.val (revote n s)
      else revote n s := by
  have fresh : freshSenders (decideStatus n s) n = freshSenders s n := freshSenders_congr (decideStatus_votes n s).senders n
  unfold recompute revote
  dsimp only
  rw [if_neg h, fresh]

theorem recompute_votes (n) (s : State) : Votes s (recompute n s) := by
  by_cases h : s.tables.slots[n].vote = .none
  · rw [recompute_none h]; exact .refl s
  · rw [recompute_eq h]
    split
    · split
      · exact (revote_votes n s).trans (.of_reports (reportBegun_reports _ _ _ _))
      · exact (revote_votes n s).trans (.of_reports (reportEnded_reports _ _ _))
    · exact revote_votes n s

/-- What a recompute makes of the slots: only the voted slot itself changes. -/
theorem recompute_slots {n : Fin 48} {s : State} (h : s.tables.slots[n].vote ≠ .none) :
    (recompute n s).slots = s.slots.set n (votedRun s.tables.slots[n] (freshSenders s n) s.slots[n]) := by
  rw [recompute_eq h, ← revote_slots]
  split
  · split
    · exact reportBegun_slots ..
    · exact reportEnded_slots ..
  · rfl

/-- Without AGREE a slot that loses its freshness reports SIGNAL_STALE last. -/
theorem recompute_stale {n : Fin 48} {s : State} (h : s.tables.slots[n].vote ≠ .none) (na : s.tables.slots[n].vote ≠ .agree)
    (few : (freshSenders s n).length < s.tables.slots[n].minFresh) (was : s.slots[n].status = .fresh) :
    recompute n s = staleBegun n (onSlot n (fun r => { r with status := .stale }) s) := by
  have nf : ¬ s.tables.slots[n].minFresh ≤ (freshSenders s n).length := by omega
  have decided : decideStatus n s = staleBegun n (onSlot n (fun r => { r with status := .stale }) s) := by
    unfold decideStatus; simp only [if_neg nf, was]
  have stale : (decideStatus n s).slots[n].status ≠ .fresh := by
    rw [decided]; simp [staleBegun]
  rw [recompute_eq h, if_neg na]
  unfold revote
  rw [if_neg stale, decided]

/-- Under AGREE values further apart than the tolerance report SIGNAL_DISAGREE last. -/
theorem recompute_disagree {n : Fin 48} {s : State} (h : s.tables.slots[n].vote = .agree)
    (apart : disagrees s.tables.slots[n].tolerance (freshSenders s n) = true) :
    recompute n s = reportBegun .signalDisagree n.val s.tables.slots[n].severity (revote n s) := by
  rw [recompute_eq (by rw [h]; decide), if_pos h, if_pos apart]

end Sys2Proof.Signals
end

section
/-! SUPPORT. The invariant of slots and sender records (O7) under the signal store's operations, time, restarts and loaded
tables. -/

namespace Sys2Proof.Signals
open Sys2Proof Sys2Proof.Machine

/-! ## The invariant of slots and sender records (O7) -/

/-- A slot configuration whose default lies in its range, and that asks for a fresh record at least (02 R28). -/
def CfgOk (c : SlotCfg) : Prop := c.min ≤ c.dflt ∧ c.dflt ≤ c.max ∧ 1 ≤ c.minFresh

/-- A value in a slot's range. -/
def InRange (c : SlotCfg) (x : Int) : Prop := c.min ≤ x ∧ x ≤ c.max

/-- A sender record serves the slot its entry names, and its value lies in that slot's range. -/
def SenderOk (t : Tables) (r : SenderRec) : Prop :=
  (∀ v, (t.entries[r.entry]).valuePick = some v → v.slot = r.slot) ∧ ∀ x, r.last = some x → InRange t.slots[r.slot] x

/-- The invariant in its three parts. -/
structure Ranges (s : State) : Prop where
  cfg : ∀ n : Fin 48, CfgOk s.tables.slots[n]
  last : ∀ n : Fin 48, InRange s.tables.slots[n] s.slots[n].last
  sender : ∀ (i : Fin 24) (r : SenderRec), s.senders[i] = some r → SenderOk s.tables r

theorem slotRangesOk_iff {s : State} : SlotRangesOk s ↔ Ranges s := by
  constructor
  · rintro ⟨slot, sender⟩
    refine ⟨fun n => ?_, fun n => ?_, sender⟩
    · obtain ⟨lo, hi, m, -, -⟩ := slot n
      exact ⟨lo, hi, m⟩
    · obtain ⟨-, -, -, l⟩ := slot n
      exact l
  · rintro ⟨cfg, last, sender⟩
    refine ⟨fun n => ?_, sender⟩
    obtain ⟨lo, hi, m⟩ := cfg n
    exact ⟨lo, hi, m, last n⟩

/-- The invariant carries over from a state to a later one. -/
def KeepsRanges (s t : State) : Prop := Ranges s → Ranges t

theorem KeepsRanges.refl (s : State) : KeepsRanges s s := id
theorem KeepsRanges.trans {s t u : State} (h : KeepsRanges s t) (k : KeepsRanges t u) : KeepsRanges s u := k ∘ h
theorem KeepsRanges.ite {s t u : State} {c : Prop} [Decidable c] (h : KeepsRanges s t) (k : KeepsRanges s u) :
    KeepsRanges s (if c then t else u) := by split <;> assumption
theorem KeepsRanges.foldl {α : Type} {f : State → α → State} (h : ∀ s a, KeepsRanges s (f s a)) (l : List α) (s : State) :
    KeepsRanges s (l.foldl f s) := foldl_of_step KeepsRanges KeepsRanges.refl (fun _ _ _ => KeepsRanges.trans) f h l s

/-- The invariant reads nothing else. -/
theorem KeepsRanges.of_signals {s t : State} (h : signals t = signals s) : KeepsRanges s t := by
  rintro ⟨cfg, last, sender⟩
  have tables := tables_of_signals h
  refine ⟨?_, ?_, ?_⟩
  · rw [tables]; exact cfg
  · rw [tables, slots_of_signals h]; exact last
  · rw [tables, senders_of_signals h]; exact sender

/-- The tables stand; each slot's last value and each sender record may differ as the hypotheses allow. -/
theorem KeepsRanges.of_parts {s t : State} (tables : t.tables = s.tables)
    (last : Ranges s → ∀ n : Fin 48, InRange s.tables.slots[n] t.slots[n].last)
    (sender : Ranges s → ∀ (i : Fin 24) (r : SenderRec), t.senders[i] = some r → SenderOk s.tables r) :
    KeepsRanges s t := fun h => ⟨tables ▸ h.cfg, tables ▸ last h, tables ▸ sender h⟩

theorem CfgOk.dflt {c : SlotCfg} (h : CfgOk c) : InRange c c.dflt := by
  obtain ⟨lo, hi, -⟩ := h
  exact ⟨lo, hi⟩

theorem clampInt_inRange {c : SlotCfg} (h : CfgOk c) (x : Int) : InRange c (clampInt c.min c.max x) := by
  obtain ⟨lo, hi, -⟩ := h
  unfold clampInt InRange
  split
  · omega
  · split <;> omega

/-! ### The signal store's own operations -/

/-- One slot changes, its last value staying in range. -/
theorem setSlot_ranges {s t : State} (n : Fin 48) (x : SlotRun) (tables : t.tables = s.tables)
    (senders : t.senders = s.senders) (slots : t.slots = s.slots.set n x)
    (h : Ranges s → InRange s.tables.slots[n] x.last) : KeepsRanges s t := by
  refine .of_parts tables (fun ok k => ?_) (fun ok i r e => ok.sender i r (senders ▸ e))
  rw [slots]
  by_cases e : n = k
  · subst e; simpa using h ok
  · have ne : n.val ≠ k.val := fun c => e (Fin.ext c)
    simpa [Vector.getElem_set_ne, ne] using ok.last k

theorem onSlot_ranges (n : Fin 48) (f : SlotRun → SlotRun) (s : State)
    (h : Ranges s → InRange s.tables.slots[n] (f s.slots[n]).last) : KeepsRanges s (onSlot n f s) :=
  setSlot_ranges n _ rfl rfl rfl h

/-- One place of the sender table changes, to a record within its rules or to none. -/
theorem setSender_ranges (i : Fin 24) (o : Option SenderRec) (s : State)
    (h : Ranges s → ∀ r, o = some r → SenderOk s.tables r) :
    KeepsRanges s { s with senders := s.senders.set i o } := by
  refine .of_parts rfl Ranges.last (fun ok k r e => ?_)
  by_cases c : i = k
  · subst c; exact h ok r (by simpa using e)
  · have ne : i.val ≠ k.val := fun d => c (Fin.ext d)
    exact ok.sender k r (by simpa [Vector.getElem_set_ne, ne] using e)

theorem onSender_ranges (i : Fin 24) (f : SenderRec → SenderRec) (s : State)
    (h : Ranges s → ∀ r, s.senders[i] = some r → SenderOk s.tables (f r)) : KeepsRanges s (onSender i f s) := by
  refine setSender_ranges i _ s (fun ok r e => ?_)
  obtain ⟨r', e', rfl⟩ := Option.map_eq_some_iff.1 e
  exact h ok r' e'

/-- A change of a record that leaves its entry, its slot and its last value. -/
theorem onSender_ranges_of_same (i : Fin 24) (f : SenderRec → SenderRec) (s : State)
    (h : ∀ r, (f r).entry = r.entry ∧ (f r).slot = r.slot ∧ (f r).last = r.last) : KeepsRanges s (onSender i f s) := by
  refine onSender_ranges i f s (fun ok r e => ?_)
  obtain ⟨entry, slot, last⟩ := h r
  unfold SenderOk
  simp only [entry, slot, last]
  exact ok.sender i r e

/-- The vote is in range, because each fresh record of the slot is. -/
theorem voteOf_inRange {s : State} (h : Ranges s) (n : Fin 48) (v : Vote) (ne : freshSenders s n ≠ []) :
    InRange s.tables.slots[n] (voteOf v (freshSenders s n)) := by
  obtain ⟨p, m, e⟩ := voteOf_mem v ne
  obtain ⟨⟨i, hi⟩, rfl, -, some⟩ := mem_freshSenders.1 m
  obtain ⟨x, hx⟩ := Option.isSome_iff_exists.1 some
  obtain ⟨-, range⟩ := h.sender i p hi
  rw [e, SenderRec.value, hx]
  exact range x hx

theorem votedRun_inRange {s : State} (h : Ranges s) (n : Fin 48) :
    InRange s.tables.slots[n] (votedRun s.tables.slots[n] (freshSenders s n) s.slots[n]).last := by
  obtain ⟨-, -, one⟩ := h.cfg n
  by_cases enough : s.tables.slots[n].minFresh ≤ (freshSenders s n).length
  · rw [votedRun_enough _ enough]
    exact voteOf_inRange h n _ (List.ne_nil_of_length_pos (one.trans enough))
  · rw [votedRun_few _ (by omega)]
    exact h.last n

theorem recompute_ranges (n : Fin 48) (s : State) : KeepsRanges s (recompute n s) := by
  by_cases h : s.tables.slots[n].vote = .none
  · rw [recompute_none h]; exact .refl s
  · exact setSlot_ranges n _ (recompute_votes n s).tables (recompute_votes n s).senders (recompute_slots h)
      (fun ok => votedRun_inRange ok n)

theorem writeSlot_ranges (n x) (s : State) : KeepsRanges s (writeSlot n x s) :=
  setSlot_ranges n _ rfl rfl rfl fun ok => clampInt_inRange (ok.cfg n) x
theorem tokenSlot_ranges (n x) (s : State) : KeepsRanges s (tokenSlot n x s) := by
  unfold tokenSlot; split
  · exact onSlot_ranges n _ s fun ok => by split <;> exact ok.last n
  · exact .refl s
theorem refreshSlot_ranges (n) (s : State) : KeepsRanges s (refreshSlot n s) :=
  (onSlot_ranges n _ s fun ok => ok.last n).trans (.of_signals (reportEndedIf_signals _ _ _ _))
theorem freshnessExpired_ranges (n) (s : State) : KeepsRanges s (freshnessExpired n s) :=
  (onSlot_ranges n _ s fun ok => ok.last n).trans
    (.of_signals ((weighAck_signals _).trans (reportBegun_signals _ _ _ _)))
theorem senderExpired_ranges (i) (s : State) : KeepsRanges s (senderExpired i s) := by
  have silent := onSender_ranges_of_same i (fun r => { r with timer := none, fresh := false, silentUs := 0 }) s
    fun _ => ⟨rfl, rfl, rfl⟩
  unfold senderExpired; dsimp only; split
  · exact silent
  · exact silent.trans ((recompute_ranges _ _).trans (.of_signals (weighAck_signals _)))

/-- Records leave the sender table. -/
theorem fewerSenders_ranges {s t : State} (tables : t.tables = s.tables) (slots : t.slots = s.slots)
    (h : ∀ (i : Fin 24) (r : SenderRec), t.senders[i] = some r → s.senders[i] = some r) : KeepsRanges s t :=
  .of_parts tables (fun ok n => slots ▸ ok.last n) (fun ok i r e => ok.sender i r (h i r e))

theorem removePlace_ranges (i) (s : State) : KeepsRanges s (removePlace i s) := by
  unfold removePlace; split
  · exact .refl s
  · exact (setSender_ranges i none s fun _ _ e => nomatch e).trans
      ((KeepsRanges.of_signals (reportEnded_signals _ _ _)).trans (recompute_ranges _ _))

theorem removePlace_tables (i) (s : State) : (removePlace i s).tables = s.tables := by
  unfold removePlace; split
  · rfl
  · exact (recompute_votes _ _).tables.trans (reportEnded_tables _ _ _)

/-- A new record serves the slot of its entry's VALUE pick and holds no value yet. -/
theorem createSender_ranges (i : Fin 24) (q : Port) (f : Frame) {entry : Fin 96} {v : Pick} {s : State}
    (names : s.tables.entries[entry].valuePick = some v) : KeepsRanges s (createSender i q f entry v.slot s) := by
  refine setSender_ranges i _ s fun _ r e => ?_
  cases e
  exact ⟨fun v' e' => congrArg Pick.slot (Option.some.inj (e'.symm.trans names)), fun x e' => nomatch e'⟩

theorem createSender_here (i : Fin 24) (q : Port) (f : Frame) (entry : Fin 96) (n : Fin 48) (s : State) :
    (createSender i q f entry n s).senders[i] = some (newSender q f entry n) := by simp [createSender]

/-- Presenting a frame keeps the invariant, and the place the frame is given holds a record that serves the slot of the
entry's VALUE pick. -/
theorem presentSender_ranges (q : Port) (f : Frame) (entry : Fin 96) (v : Pick) (s : State)
    (names : s.tables.entries[entry].valuePick = some v) :
    KeepsRanges s (presentSender q f entry v.slot s).2
    ∧ ∀ i, (presentSender q f entry v.slot s).1 = some i → Ranges s →
        ∃ r, (presentSender q f entry v.slot s).2.senders[i] = some r ∧ r.slot = v.slot := by
  unfold presentSender; split
  · next i _ =>
    split
    · next same =>
      refine ⟨.refl s, fun j e ok => ?_⟩
      cases e
      obtain ⟨r, hr, same⟩ := (Option.any_eq_true _ _).1 same
      have entry_eq : r.entry = entry := by simpa using same
      obtain ⟨serves, -⟩ := ok.sender i r hr
      exact ⟨r, hr, (serves v (entry_eq ▸ names)).symm⟩
    · refine ⟨(removePlace_ranges i s).trans (createSender_ranges i q f ((removePlace_tables i s).symm ▸ names)),
        fun j e _ => ?_⟩
      cases e
      exact ⟨_, createSender_here .., rfl⟩
  · split
    · next i _ =>
      refine ⟨createSender_ranges i q f names, fun j e _ => ?_⟩
      cases e
      exact ⟨_, createSender_here .., rfl⟩
    · exact ⟨.of_signals (reportBegun_signals _ _ _ _), fun j e => nomatch e⟩

/-- A record takes a clamped value of the slot it serves. -/
theorem writeSender_ranges (i : Fin 24) (n : Fin 48) (x : Int) (s : State) (r : SenderRec) (here : s.senders[i] = some r)
    (serves : r.slot = n) : KeepsRanges s (writeSender i n x s) := by
  subst serves
  let y := clampInt s.tables.slots[r.slot].min s.tables.slots[r.slot].max x
  have marked := onSlot_ranges r.slot (fun q => { q with clamped := y != x }) s fun ok => ok.last r.slot
  refine marked.trans (KeepsRanges.trans (t := { onSlot r.slot (fun q => { q with clamped := y != x }) s with
    written := s.written + 1 }) (.of_signals rfl) (onSender_ranges i _ _ fun ok r' e => ?_))
  obtain rfl : r = r' := Option.some.inj (here.symm.trans e)
  obtain ⟨names, -⟩ := ok.sender i r e
  exact ⟨names, fun z hz => Option.some.inj hz ▸ clampInt_inRange (ok.cfg r.slot) x⟩

theorem applySenderToken_ranges (i d) (s : State) (p) : KeepsRanges s (applySenderToken i d s p) := by
  unfold applySenderToken; split
  · exact onSender_ranges_of_same i _ s fun _ => by split <;> exact ⟨rfl, rfl, rfl⟩
  all_goals exact .refl s

theorem refreshSender_ranges (i n) (s : State) : KeepsRanges s (refreshSender i n s) :=
  onSender_ranges_of_same i _ s fun _ => by
    split
    · split <;> exact ⟨rfl, rfl, rfl⟩
    · exact ⟨rfl, rfl, rfl⟩

/-- The picks of a PER_SENDER entry, applied to a record that serves the slot of its VALUE pick. -/
theorem applySender_ranges (i : Fin 24) (e : MatchEntry) (d : List Byte) (s : State) (v : Pick) (names : e.valuePick = some v)
    (r : SenderRec) (here : s.senders[i] = some r) (serves : r.slot = v.slot) : KeepsRanges s (applySender i e d s) := by
  unfold applySender
  rw [names]
  dsimp only
  split
  · exact .refl s
  · next x _ =>
    exact (writeSender_ranges i v.slot x s r here serves).trans <|
      (KeepsRanges.foldl (applySenderToken_ranges i d) _ _).trans <|
      (refreshSender_ranges i v.slot _).trans (recompute_ranges _ _)

theorem applyDirect_ranges (e d) (s : State) : KeepsRanges s (applyDirect e d s) := by
  refine (KeepsRanges.foldl (fun u p => ?_) _ _).trans <| (KeepsRanges.foldl (fun u p => ?_) _ _).trans <|
    .of_signals (weighAck_signals _)
  · unfold applyDirectPick; split
    · exact .refl u
    · split
      · split
        · exact writeSlot_ranges _ _ _
        · exact tokenSlot_ranges _ _ _
      · exact .refl u
  · exact .ite (refreshSlot_ranges _ _) (.refl u)

theorem carryOut_ranges (entry q f) (s : State) : KeepsRanges s (carryOut entry q f s) := by
  unfold carryOut; dsimp only; split
  · exact (applyDirect_ranges _ _ _).trans (.of_signals (forwardAction_signals _ _ _ _))
  · split
    · exact .of_signals (forwardAction_signals _ _ _ _)
    · next v names =>
      obtain ⟨kept, place⟩ := presentSender_ranges q f entry v s names
      split
      · next u heq => rw [heq] at kept; exact kept
      · next i u heq =>
        rw [heq] at kept place
        intro ok
        obtain ⟨r, here, serves⟩ := place i rfl ok
        have applied := applySender_ranges i _ f.data u v names r here serves
        exact KeepsRanges.of_signals ((forwardAction_signals _ _ _ _).trans (weighAck_signals _)) (applied (kept ok))

theorem framePath_ranges (q f) (s : State) : KeepsRanges s (framePath q f s) := by
  unfold framePath; split
  · exact carryOut_ranges _ _ _ _
  · split
    · exact .of_signals (forward_signals _ _ _)
    · exact .refl s

/-- The sender table without the records that satisfy `p`. -/
def remaining (p : SenderRec → Bool) (s : State) : Vector (Option SenderRec) 24 :=
  s.senders.map fun o => o.filter fun r => !p r

theorem remaining_some {p : SenderRec → Bool} {s : State} {i : Fin 24} {r : SenderRec} :
    (remaining p s)[i] = some r ↔ s.senders[i] = some r ∧ p r = false := by
  simp [remaining, Option.filter_eq_some_iff]

/-- Nothing is removed when no record satisfies `p`. -/
theorem remaining_of_empty {p : SenderRec → Bool} {s : State}
    (h : (s.senders.toList.filter fun o => o.any p).isEmpty = true) : remaining p s = s.senders := by
  refine Vector.ext fun i hi => ?_
  have none' : (s.senders[i]).any p = false := by
    simpa using List.filter_eq_nil_iff.1 (List.isEmpty_iff.1 h) s.senders[i] (by simp)
  rw [remaining, Vector.getElem_map]
  cases e : s.senders[i] with
  | none => rfl
  | some r =>
    rw [e] at none'
    simpa [Option.filter] using none'

/-- After its records have left the table, a removal keeps the invariant: the slots they served are voted anew. -/
theorem removeSenders_ranges (p r) (s : State) : KeepsRanges { s with senders := remaining p s } (removeSenders p r s) := by
  unfold removeSenders; dsimp only; split
  · next h => exact .of_signals (congrArg (s.tables, s.slots, ·) (remaining_of_empty h).symm)
  · exact (KeepsRanges.of_signals (reportEnded_signals _ _ _)).trans (KeepsRanges.foldl (fun u n => recompute_ranges n u) _ _)

/-- A removal whose slots the same event resets votes none anew. -/
theorem removeSenders_signals (p reset) (s : State) (h : ∀ r, p r = true → reset r.slot = true) :
    signals (removeSenders p reset s) = (s.tables, s.slots, remaining p s) := by
  unfold removeSenders; dsimp only; split
  · next e => exact congrArg (s.tables, s.slots, ·) (remaining_of_empty e).symm
  · have nothing : (servedSlots (s.senders.toList.filter fun o => o.any p)).filter (fun n => !reset n) = [] := by
      refine List.filter_eq_nil_iff.2 fun n hn => ?_
      simp only [servedSlots, List.mem_eraseDups, List.mem_filterMap, List.mem_filter, Option.map_eq_some_iff] at hn
      obtain ⟨_, ⟨-, sat⟩, r, rfl, rfl⟩ := hn
      simp [h r sat]
    rw [nothing]
    exact reportEnded_signals _ _ _

/-- Every record is removed (02 R33, at a DROP_SENDERS, a COMMIT of its slot and a RECALL). -/
theorem dropped_ranges (p r) (s : State) : KeepsRanges s (removeSenders p r s) :=
  KeepsRanges.trans (t := { s with senders := remaining p s })
    (fewerSenders_ranges rfl rfl fun _ _ e => (remaining_some.1 e).1) (removeSenders_ranges p r s)

/-! ### Time, restarts and loaded tables -/

/-- Timers and statuses of slots and records change, and what the invariant reads of them stays. -/
theorem KeepsRanges.of_runs {s t : State} (tables : t.tables = s.tables)
    (slots : ∀ n : Fin 48, t.slots[n].last = s.slots[n].last)
    (senders : ∃ f : SenderRec → SenderRec, t.senders = s.senders.map (Option.map f)
      ∧ ∀ r, (f r).entry = r.entry ∧ (f r).slot = r.slot ∧ (f r).last = r.last) : KeepsRanges s t := by
  refine .of_parts tables (fun ok n => slots n ▸ ok.last n) fun ok i r e => ?_
  obtain ⟨f, hf, same⟩ := senders
  rw [hf] at e
  obtain ⟨q, hq, rfl⟩ : ∃ q, s.senders[i] = some q ∧ f q = r := by simpa using e
  obtain ⟨entry, slot, last⟩ := same q
  unfold SenderOk
  simp only [entry, slot, last]
  exact ok.sender i q hq

theorem passTime_ranges (n : Nat) (s : State) : KeepsRanges s (passTime n s) :=
  .of_runs rfl (fun k => by simp [passTime])
    ⟨fun r => r.pass n s.tables.slots[r.slot].timeout, rfl, fun _ => ⟨rfl, rfl, rfl⟩⟩

theorem advance_ranges (n : Nat) (s : State) : KeepsRanges s (advance n s) := by
  cases n with
  | zero => exact .refl s
  | succ n => exact passTime_ranges _ s

theorem sleepBody_ranges (s : State) : KeepsRanges s (sleepBody s) :=
  .of_runs rfl (fun k => by simp [sleepBody, stopTimers]) ⟨fun r => { r with timer := none }, rfl, fun _ => ⟨rfl, rfl, rfl⟩⟩

/-- Tables whose slot configurations a COMMIT accepts. -/
def SlotCfgsOk (t : Tables) : Prop := ∀ n : Fin 48, CfgOk t.slots[n]

theorem slotDecode_cfgOk {b : List Byte} {c : SlotCfg} (h : SlotCfg.decode b = some c) : CfgOk c := by
  unfold SlotCfg.decode withinInt within at h
  simp only [Option.bind_eq_bind, Option.bind_eq_some_iff, Option.pure_def, Option.some.injEq, Option.ite_none_right_eq_some] at h
  obtain ⟨mx, ⟨⟨lo, hi⟩, rfl⟩, df, ⟨⟨dlo, dhi⟩, rfl⟩, _, _, _, _, _, _, _, _, _, _, _, _, mf, ⟨⟨one, _⟩, rfl⟩, rfl⟩ := h
  exact ⟨dlo, dhi, one⟩

theorem setCfg_ok {t : Tables} (h : SlotCfgsOk t) (i : Fin 48) {c : SlotCfg} (k : CfgOk c) (n : Fin 48) :
    CfgOk (t.slots.set i c)[n] := by
  by_cases e : i = n
  · subst e; simpa using k
  · have ne : i.val ≠ n.val := fun d => e (Fin.ext d)
    simpa [Vector.getElem_set_ne, ne] using h n

theorem replace_slotCfgsOk {t u : Tables} {k : Item} {i : Nat} {b : List Byte} (h : SlotCfgsOk t)
    (e : t.replace k i b = some u) : SlotCfgsOk u := by
  unfold Tables.replace at e
  cases k
  case slot =>
    obtain ⟨c, hc, rfl⟩ := Option.map_eq_some_iff.1 e
    exact setCfg_ok h _ (slotDecode_cfgOk hc)
  case capture | fault | sender => cases e
  all_goals
    obtain ⟨_, -, rfl⟩ := Option.map_eq_some_iff.1 e
    exact h

theorem build_slotCfgsOk (hd : Header) (l : List (Item × Nat × List Byte)) {t u : Tables} (h : SlotCfgsOk t)
    (e : hd.build l t = some u) : SlotCfgsOk u := by
  induction l generalizing t with
  | nil => cases e; exact h
  | cons r l ih =>
    obtain ⟨t', replaced, built⟩ := Option.bind_eq_some_iff.1 e
    exact ih (replace_slotCfgsOk h replaced) built

theorem factory_slotCfgsOk : SlotCfgsOk Tables.factory := fun n => by
  simp [Tables.factory, CfgOk, SlotCfg.factory]

theorem load_slotCfgsOk {v : Nvm} {sum : BitVec 32} {t : Tables} (e : v.load sum = some t) : SlotCfgsOk t := by
  unfold Nvm.load at e
  split at e
  · cases e
  · cases e
  · dsimp only at e
    split at e
    · simp only [Option.bind_eq_bind, Option.bind_eq_some_iff, Option.pure_def] at e
      obtain ⟨records, -, e⟩ := e
      split at e
      · simp only [Option.bind_eq_some_iff, Option.ite_none_right_eq_some, Option.some.injEq] at e
        obtain ⟨u, built, -, rfl⟩ := e
        exact build_slotCfgsOk _ _ factory_slotCfgsOk built
      · cases e
    · cases e

theorem judgeCutoff_signals (s : State) : signals (judgeCutoff s) = signals s := signals_ite (reportBegun_signals _ _ _ _) rfl
theorem judgeStore_signals (s : State) : signals (judgeStore s) = signals s := signals_ite (reportBegun_signals _ _ _ _) rfl
theorem endUnobserved_signals (s : State) : signals (endUnobserved s) = signals s :=
  signals_foldl (fun _ _ => reportEnded_signals _ _ _) _ s
theorem judgeIgnition_signals (s : State) : signals (judgeIgnition s) = signals s := signals_ite rfl (startShutdown_signals s)
theorem unlock_signals (s : State) : signals { s with gov.lock := false, ev.armChange := false } = signals s := rfl
theorem takeAckReading_signals (s : State) : signals (takeAckReading s) = signals s := rfl

theorem restartBlocks_signals (s : State) : signals (restartBlocks s) = signals (setBlocks s) := by
  unfold restartBlocks
  generalize setBlocks s = u
  exact (judgeIgnition_signals _).trans <| (unlock_signals _).trans <| (formLevel_signals _).trans <|
    (endUnobserved_signals _).trans <| (judgeStore_signals _).trans <| (judgeCutoff_signals _).trans <|
    (captureUpdate_signals _).trans (takeAckReading_signals u)

/-- A restart sets every slot to its default and empties the sender table. -/
theorem restartBlocks_ranges (s : State) (h : SlotCfgsOk s.tables) : Ranges (restartBlocks s) := by
  refine KeepsRanges.of_signals (restartBlocks_signals s) ⟨h, fun n => ?_, fun i r e => ?_⟩
  · simpa [setBlocks, SlotRun.restarted] using (h n).dflt
  · simp [setBlocks] at e

theorem coldStart_ranges (s : State) : KeepsRanges s (coldStart s) := by
  intro _
  refine restartBlocks_ranges _ ?_
  show SlotCfgsOk (s.nvm.loadWhole.getD Tables.factory)
  cases e : s.nvm.loadWhole with
  | none => exact factory_slotCfgsOk
  | some t => exact load_slotCfgsOk e
theorem warmRestart_ranges (c) (s : State) : KeepsRanges s (warmRestart c s) := fun ok => restartBlocks_ranges _ ok.cfg

end Sys2Proof.Signals
end

section
/-! SUPPORT. The invariant under RECALL, COMMIT and the other requests, and under every step: O7. -/

namespace Sys2Proof.Signals
open Sys2Proof Sys2Proof.Machine

/-! ### RECALL and COMMIT -/

/-- A RECALL sets one slot as an accepted COMMIT of it does. -/
def recallSlot (s : State) (n : Fin 48) : State :=
  reportEnded .signalDisagree n.val (reportEnded .signalStale n.val (restartSlot n s))

theorem recallSlot_signals (s : State) (n : Fin 48) : signals (recallSlot s n) = signals (restartSlot n s) :=
  (reportEnded_signals _ _ _).trans (reportEnded_signals _ _ _)

theorem recallSlot_foldl (l : List (Fin 48)) : ∀ s : State, (l.foldl recallSlot s).tables = s.tables
    ∧ (l.foldl recallSlot s).senders = s.senders
    ∧ ∀ n : Fin 48, (l.foldl recallSlot s).slots[n] = if n ∈ l then SlotRun.restarted s.tables.slots[n] else s.slots[n] := by
  induction l with
  | nil => exact fun s => ⟨rfl, rfl, fun n => by simp⟩
  | cons k l ih =>
    intro s
    have one := recallSlot_signals s k
    have sameTables : (recallSlot s k).tables = s.tables := congrArg Prod.fst one
    have sameSenders : (recallSlot s k).senders = s.senders := congrArg (·.2.2) one
    have set : (recallSlot s k).slots = s.slots.set k (SlotRun.restarted s.tables.slots[k]) := congrArg (·.2.1) one
    obtain ⟨tables, senders, slots⟩ := ih (recallSlot s k)
    refine ⟨tables.trans sameTables, senders.trans sameSenders, fun n => (slots n).trans ?_⟩
    rw [sameTables, set]
    by_cases m : n ∈ l
    · simp [m]
    · by_cases e : k = n
      · subst e; simp [m]
      · have ne : k.val ≠ n.val := fun d => e (Fin.ext d)
        have ne' : n ≠ k := fun d => e d.symm
        simp [m, Vector.getElem_set_ne, ne, ne']

theorem mem_allFin {n : Nat} (i : Fin n) : i ∈ allFin n := by
  induction n with
  | zero => exact i.elim0
  | succ n ih =>
    unfold allFin
    cases i using Fin.cases with
    | zero => exact List.mem_cons_self
    | succ i => exact List.mem_cons_of_mem _ (List.mem_map_of_mem (ih i))

/-- A RECALL sets each slot to its default and touches neither the tables nor the sender table. -/
theorem recallSlots_effect (s : State) : (recallSlots s).tables = s.tables ∧ (recallSlots s).senders = s.senders
    ∧ ∀ n : Fin 48, (recallSlots s).slots[n] = SlotRun.restarted s.tables.slots[n] := by
  obtain ⟨tables, senders, slots⟩ := recallSlot_foldl (allFin 48) s
  exact ⟨tables, senders, fun n => (slots n).trans (if_pos (mem_allFin n))⟩

theorem recallChannels_signals (s : State) : signals (recallChannels s) = signals s := rfl

theorem replaceTables_ranges (t : Tables) (s : State) (h : SlotCfgsOk t) : Ranges (replaceTables t s) := by
  unfold replaceTables
  dsimp only
  have emptied := removeSenders_signals (fun _ => true) (fun _ => true) { s with tables := t } fun _ _ => rfl
  generalize removeSenders _ _ { s with tables := t } = u at emptied
  have tables : u.tables = t := tables_of_signals (t := u) (s := { s with tables := t, senders := remaining _ _ }) emptied
  have senders (i : Fin 24) (r : SenderRec) : u.senders[i] ≠ some r := by
    rw [show u.senders = _ from congrArg (·.2.2) emptied]
    intro e
    cases (remaining_some.1 e).2
  obtain ⟨sameTables, sameSenders, slots⟩ := recallSlots_effect u
  have set : Ranges (recallSlots u) := by
    refine ⟨fun n => ?_, fun n => ?_, fun i r e => ?_⟩
    · rw [sameTables, tables]; exact h n
    · rw [sameTables, slots n, tables]; exact (h n).dflt
    · rw [sameSenders] at e; exact absurd e (senders i r)
  exact KeepsRanges.of_signals ((weighAck_signals _).trans <| (resetCapture_signals _).trans <|
    (actOnFitted_signals _ _).trans (recallChannels_signals _)) set

theorem recallDone_ranges (sum) (s : State) : KeepsRanges s (recallDone sum s) := by
  unfold recallDone
  dsimp only
  split
  · next t loaded =>
    exact fun _ => KeepsRanges.of_signals (deferredReply_signals _ _) (replaceTables_ranges t _ (load_slotCfgsOk loaded))
  · exact .of_signals (deferredReply_signals _ _)

theorem startRecall_ranges (s : State) : KeepsRanges s (startRecall s) := by
  unfold startRecall
  split
  · exact .of_signals (deferredReply_signals _ _)
  · exact .ite (recallDone_ranges _ s) (.of_signals rfl)

theorem readDone_ranges (r) (s : State) : KeepsRanges s (readDone r s) :=
  .ite (.of_signals rfl) (recallDone_ranges _ s)

/-- Tables that differ in neither entries nor slot configurations. -/
theorem KeepsRanges.of_tables {s t : State} (entries : t.tables.entries = s.tables.entries)
    (cfgs : t.tables.slots = s.tables.slots) (slots : t.slots = s.slots) (senders : t.senders = s.senders) :
    KeepsRanges s t := by
  rintro ⟨cfg, last, sender⟩
  refine ⟨?_, ?_, ?_⟩
  · rw [cfgs]; exact cfg
  · rw [cfgs, slots]; exact last
  · unfold SenderOk
    rw [cfgs, entries, senders]; exact sender

/-- A COMMIT is refused, or accepted with the record its bytes give. -/
theorem commitWith_cases {α : Type} (n index len : Nat) (decode : List Byte → Option α) (accept : Fin n → α → State → Judged)
    (s : State) : (commitWith n index len decode accept s).2 = s
      ∨ ∃ i x, decode (staged s len) = some x ∧ commitWith n index len decode accept s = accept i x s := by
  unfold commitWith
  split
  · next i x _ hx => exact .inr ⟨i, x, hx, rfl⟩
  · exact .inl rfl
  · exact .inl rfl

/-- A COMMIT keeps the invariant if accepting does. -/
theorem commitWith_ranges {α : Type} (n index len : Nat) (decode : List Byte → Option α)
    (accept : Fin n → α → State → Judged) (s : State)
    (h : ∀ i x, decode (staged s len) = some x → KeepsRanges s (accept i x s).2) :
    KeepsRanges s (commitWith n index len decode accept s).2 := by
  rcases commitWith_cases n index len decode accept s with e | ⟨i, x, hx, e⟩
  · rw [e]; exact .refl s
  · rw [e]; exact h i x hx

/-- The records of an entry leave with its COMMIT, so no record names the replaced entry. -/
theorem acceptMatch_ranges (i e) (s : State) : KeepsRanges s (acceptMatch i e s).2 := by
  unfold acceptMatch
  split
  · let u : State := { s with tables := { s.tables with entries := s.tables.entries.set i e } }
    have left : KeepsRanges s { u with senders := remaining (fun r => r.entry == i) u } := by
      intro ok
      refine ⟨ok.cfg, ok.last, fun k r hr => ?_⟩
      obtain ⟨here, other⟩ := remaining_some.1 hr
      obtain ⟨names, range⟩ := ok.sender k r here
      have ne : i.val ≠ r.entry.val := fun d => by simp [Fin.ext d] at other
      exact ⟨fun v hv => names v (by simpa [u, Vector.getElem_set_ne, ne] using hv), range⟩
    exact left.trans ((removeSenders_ranges _ _ u).trans (.of_signals (weighAck_signals _)))
  · exact .refl s

/-- The records of a slot leave with its COMMIT, and the slot goes to its new default. -/
theorem acceptSlot_ranges (i : Fin 48) (c : SlotCfg) (s : State) (h : CfgOk c) : KeepsRanges s (acceptSlot i c s).2 := by
  unfold acceptSlot
  split
  · intro ok
    dsimp only
    have emptied := removeSenders_signals (fun r => r.slot == i) (fun n => n == i)
      { s with tables := { s.tables with slots := s.tables.slots.set i c } } fun _ e => e
    generalize removeSenders _ _ _ = u at emptied
    have tables : u.tables = { s.tables with slots := s.tables.slots.set i c } := congrArg Prod.fst emptied
    have slots : u.slots = s.slots := congrArg (·.2.1) emptied
    have senders : u.senders = remaining (fun r => r.slot == i) s := congrArg (·.2.2) emptied
    refine KeepsRanges.of_signals ((weighAck_signals _).trans <| (reportEnded_signals _ _ _).trans
      (reportEnded_signals _ _ _)) (s := restartSlot i u) ⟨fun n => ?_, fun n => ?_, fun k r hr => ?_⟩
    · show CfgOk u.tables.slots[n]
      rw [tables]
      exact setCfg_ok ok.cfg i h n
    · show InRange u.tables.slots[n] (u.slots.set i (SlotRun.restarted u.tables.slots[i]))[n].last
      rw [tables, slots]
      by_cases e : i = n
      · subst e; simpa [SlotRun.restarted] using h.dflt
      · have ne : i.val ≠ n.val := fun d => e (Fin.ext d)
        simpa [Vector.getElem_set_ne, ne] using ok.last n
    · have hr' : (remaining (fun r => r.slot == i) s)[k] = some r := senders ▸ hr
      obtain ⟨here, other⟩ := remaining_some.1 hr'
      obtain ⟨names, range⟩ := ok.sender k r here
      have ne : i.val ≠ r.slot.val := fun d => by simp [Fin.ext d] at other
      show SenderOk u.tables r
      rw [tables]
      exact ⟨names, fun x hx => by simpa [Vector.getElem_set_ne, ne] using range x hx⟩
  · exact .refl s

theorem commitItem_ranges (code index) (s : State) : KeepsRanges s (commitItem code index s).2 := by
  unfold commitItem
  split
  case h_1 => exact commitWith_ranges _ _ _ _ _ s fun i e _ => acceptMatch_ranges i e s
  case h_2 => exact commitWith_ranges _ _ _ _ _ s fun i c h => acceptSlot_ranges i c s (slotDecode_cfgOk h)
  case h_3 =>
    exact commitWith_ranges _ _ _ _ _ s fun _ x _ =>
      KeepsRanges.trans (t := { s with tables := { s.tables with roles := x } }) (.of_tables rfl rfl rfl rfl)
        (.of_signals (weighAck_signals _))
  case h_6 =>
    exact commitWith_ranges _ _ _ _ _ s fun _ x _ =>
      KeepsRanges.trans (t := { s with tables := { s.tables with arms := x } }) (.of_tables rfl rfl rfl rfl)
        (.of_signals (actOnFitted_signals _ _))
  case h_7 =>
    refine commitWith_ranges _ _ _ _ _ s fun i x _ => ?_
    dsimp only
    split
    · exact .refl s
    · exact .of_tables rfl rfl rfl rfl
  case h_8 =>
    refine commitWith_ranges _ _ _ _ _ s fun i x _ => ?_
    dsimp only
    split
    · exact .refl s
    · exact .of_tables rfl rfl rfl rfl
  case h_10 =>
    exact commitWith_ranges _ _ _ _ _ s fun _ x _ =>
      KeepsRanges.trans (t := { s with tables := { s.tables with drive := x } }) (.of_tables rfl rfl rfl rfl)
        (.of_signals (resetCapture_signals _))
  case h_4 | h_5 | h_9 | h_11 | h_12 =>
    exact commitWith_ranges _ _ _ _ _ s fun _ x _ => .of_tables rfl rfl rfl rfl
  all_goals exact .refl s

/-! ### Requests -/

theorem dropSenders_ranges (slot) (s : State) : KeepsRanges s (dropSenders slot s).2 := by
  unfold dropSenders
  split
  · exact (dropped_ranges _ _ s).trans (.of_signals (weighAck_signals _))
  · split
    · exact (dropped_ranges _ _ s).trans (.of_signals (weighAck_signals _))
    · exact .refl s

theorem answerJudged_ranges {j : Judged} {s : State} (c t) (h : KeepsRanges s j.2) : KeepsRanges s (answerJudged c t j) :=
  h.trans (.of_signals (answer_signals _ _ _ _ _))

theorem carryOutRequest_ranges (c t d) (s : State) : KeepsRanges s (carryOutRequest c t d s) := by
  unfold carryOutRequest
  split
  · exact answerJudged_ranges _ _ (.of_signals (openConfig_signals s))
  · exact .of_signals (answer_signals _ _ _ _ _)
  · exact .of_signals ((answer_signals _ _ _ _ _).trans (readItem_signals _ _ _ s))
  · refine answerJudged_ranges _ _ ?_
    unfold stageItem
    split <;> exact .of_signals rfl
  · exact answerJudged_ranges _ _ (commitItem_ranges _ _ s)
  · exact .of_signals (startStore_signals _)
  · exact KeepsRanges.trans (t := { s with service.deferred := some (c, t) }) (.of_signals rfl) (startRecall_ranges _)
  · split <;> exact .of_signals (answer_signals _ _ _ _ _)
  · exact .of_signals ((answer_signals _ _ _ _ _).trans (acknowledge_signals s))
  · exact answerJudged_ranges _ _ (.of_signals (channelControl_signals _ _ s))
  · exact .of_signals (restartRequest_signals _ _ s)
  · exact .of_signals (answer_signals _ _ _ _ _)
  · exact answerJudged_ranges _ _ (dropSenders_ranges _ s)
  · exact .refl s

theorem restartInactivity_signals (s : State) : signals (restartInactivity s) = signals s := signals_ite rfl rfl

theorem serviceRequest_ranges (d) (s : State) : KeepsRanges s (serviceRequest d s) := by
  unfold serviceRequest
  split
  · exact .refl s
  · refine (KeepsRanges.of_signals (restartInactivity_signals s)).trans (.ite (.refl _) ?_)
    split
    · exact .of_signals (answer_signals _ _ _ _ _)
    · exact carryOutRequest_ranges _ _ _ _

/-! ### Every step -/

theorem event_ranges {body : State → State} (h : ∀ s, KeepsRanges s (body s)) (s : State) : KeepsRanges s (event body s) :=
  KeepsRanges.trans (t := { s with ev := .none }) (.of_signals rfl) ((h _).trans (.of_signals (finish_signals _)))
theorem restartIfDue_ranges (s : State) : KeepsRanges s (restartIfDue s) :=
  .ite (event_ranges (warmRestart_ranges _) s) (.refl s)
theorem sleepIfDue_ranges (s : State) : KeepsRanges s (sleepIfDue s) := by
  have slept := event_ranges sleepBody_ranges s
  exact .ite (.ite (slept.trans (event_ranges (warmRestart_ranges _) _)) slept) (.refl s)

/-- An answer whose next state keeps the invariant. -/
def AnswerKeepsRanges (s : State) (a : Answer) : Prop := ∀ t, a = .next t → KeepsRanges s t

theorem AnswerKeepsRanges.next {s t : State} (h : KeepsRanges s t) : AnswerKeepsRanges s (.next t) := by
  rintro _ ⟨⟩; exact h
theorem AnswerKeepsRanges.ite {s : State} {a b : Answer} {c : Prop} [Decidable c] (h : AnswerKeepsRanges s a)
    (k : AnswerKeepsRanges s b) : AnswerKeepsRanges s (if c then a else b) := by split <;> assumption
theorem AnswerKeepsRanges.stay (s : State) : AnswerKeepsRanges s (.next s) := .next (.refl s)

theorem happens_ranges {body : State → State} (h : ∀ s, KeepsRanges s (body s)) (c) (s : State) :
    AnswerKeepsRanges s (happens c body s) := .ite (.next (event_ranges h s)) (.stay s)
theorem expires_ranges {body : State → State} (h : ∀ s, KeepsRanges s (body s)) (t) (s : State) :
    AnswerKeepsRanges s (expires t body s) := by
  refine .ite ?_ (.stay s)
  split
  · exact .next ((advance_ranges _ s).trans (event_ranges h _))
  · exact .stay s
theorem operationEvent_ranges {body : State → State} (h : ∀ s, KeepsRanges s (body s)) (t) (s : State) :
    AnswerKeepsRanges s (operationEvent t body s) := by
  refine .ite ?_ (.stay s)
  split
  · exact .next ((advance_ranges _ s).trans ((event_ranges h _).trans (sleepIfDue_ranges _)))
  · exact .stay s

/-- An event that leaves tables, slots and sender table. -/
theorem happens_apart {body : State → State} (h : ∀ s, signals (body s) = signals s) (c) (s : State) :
    AnswerKeepsRanges s (happens c body s) := happens_ranges (fun s => .of_signals (h s)) c s
theorem expires_apart {body : State → State} (h : ∀ s, signals (body s) = signals s) (t) (s : State) :
    AnswerKeepsRanges s (expires t body s) := expires_ranges (fun s => .of_signals (h s)) t s
theorem event_apart {body : State → State} (h : ∀ s, signals (body s) = signals s) (s : State) :
    KeepsRanges s (event body s) := event_ranges (fun s => .of_signals (h s)) s

theorem execFrameReceived_ranges (q f) (s : State) : AnswerKeepsRanges s (execFrameReceived q f s) := by
  refine .ite (happens_ranges (fun u => ?_) _ s) fun t e => nomatch e
  exact .ite (serviceRequest_ranges _ _) (framePath_ranges _ _ _)
theorem request_ranges (d) (s : State) : AnswerKeepsRanges s (request d s) := happens_ranges (serviceRequest_ranges d) _ s
theorem execFrameSent_ranges (q) (s : State) : AnswerKeepsRanges s (execFrameSent q s) := by
  refine .ite ?_ (.stay s)
  split
  · exact .next ((event_apart (frameSentBody_signals q _) s).trans (restartIfDue_ranges _))
  · exact .stay s
theorem execPulseEdge_ranges (ch d k) (s : State) : AnswerKeepsRanges s (execPulseEdge ch d k s) := by
  refine .ite (.ite (.next ((advance_ranges _ s).trans (.trans (.ite ?_ (.refl _)) (event_apart (edge_signals ch d k) _))))
    (.next (advance_ranges _ s))) (.stay s)
  exact event_apart (standstillExpired_signals ch) _
theorem execShutdownTimerExpiry_ranges (s : State) : AnswerKeepsRanges s (execShutdownTimerExpiry s) := by
  refine .ite ?_ (.stay s)
  split
  · exact .next ((advance_ranges _ s).trans ((event_apart (body := shutdownExpired) (fun _ => rfl) _).trans
      (sleepIfDue_ranges _)))
  · exact .stay s
theorem execColdStart_ranges (s : State) : AnswerKeepsRanges s (execColdStart s) :=
  .next (.trans (.ite (.refl s) (.of_signals (losePower_signals s))) (event_ranges coldStart_ranges _))
theorem execWake_ranges (s : State) : AnswerKeepsRanges s (execWake s) :=
  .ite (.next (KeepsRanges.trans (t := { s with ignLine := true }) (.of_signals rfl) (event_ranges (warmRestart_ranges _) _)))
    (.next (.of_signals rfl))
theorem execIgnitionShutdown_ranges (s : State) : AnswerKeepsRanges s (execIgnitionShutdown s) :=
  .ite (.ite (.next (KeepsRanges.trans (t := { s with ignLine := false }) (.of_signals rfl)
    (event_apart startShutdown_signals _))) (.next (.of_signals rfl))) (.stay s)
theorem execStorePageStep_ranges (b) (s : State) : AnswerKeepsRanges s (execStorePageStep b s) := by
  unfold execStorePageStep; split
  · exact operationEvent_ranges (fun u => .of_signals (storeStep_signals b _ u)) _ s
  · exact .stay s
theorem execStoreCompletion_ranges (s : State) : AnswerKeepsRanges s (execStoreCompletion s) := by
  unfold execStoreCompletion; split
  · exact .ite (operationEvent_ranges (fun u => .of_signals (storeDone_signals _ u)) _ s) (.stay s)
  · exact .stay s
theorem execRecallPageRead_ranges (s : State) : AnswerKeepsRanges s (execRecallPageRead s) := by
  unfold execRecallPageRead; split
  · exact operationEvent_ranges (readDone_ranges _) _ s
  · exact .stay s
theorem execRecallCompletion_ranges (s : State) : AnswerKeepsRanges s (execRecallCompletion s) := by
  unfold execRecallCompletion; split
  · exact .ite (.stay s) (operationEvent_ranges (readDone_ranges _) _ s)
  · exact .stay s
theorem execWaitingHolderPlaced_ranges (q) (s : State) : AnswerKeepsRanges s (execWaitingHolderPlaced q s) :=
  happens_apart (body := fun s => completeAll ((handPlace q s).onPort q PortUnit.offerLink))
    (fun u => (completeAll_signals _).trans (handPlace_signals q u)) _ s

/-- Every command keeps the invariant. -/
theorem exec_ranges (i : Instr) (s : State) : AnswerKeepsRanges s (exec i s) := by
  cases i
  case frameReceived q f => exact execFrameReceived_ranges q f s
  case frameSent q => exact execFrameSent_ranges q s
  case waitingHolderPlaced q => exact execWaitingHolderPlaced_ranges q s
  case linkLost q => exact .ite (.next ((event_apart (linkLostBody_signals q) s).trans (restartIfDue_ranges _))) (.stay s)
  case linkRestored q => exact happens_apart (linkRestoredBody_signals q) _ s
  case pulseEdge ch d k => exact execPulseEdge_ranges ch d k s
  case windowTimerExpiry ch => exact expires_apart (windowExpired_signals ch) _ s
  case standstillTimerExpiry ch => exact expires_apart (standstillExpired_signals ch) _ s
  case disagreementTimerExpiry => exact expires_apart disagreementExpired_signals _ s
  case lossTimerExpiry ch => exact expires_apart (lossExpired_signals ch) _ s
  case returnTimerExpiry ch => exact expires_apart (returnExpired_signals ch) _ s
  case freshnessTimerExpiry n => exact expires_ranges (freshnessExpired_ranges n) _ s
  case senderTimerExpiry p => exact expires_ranges (senderExpired_ranges p) _ s
  case silentTimeEnd p =>
    exact expires_ranges (fun u => (removePlace_ranges p u).trans (.of_signals (weighAck_signals _))) _ s
  case governorPeriod => exact expires_apart governorBody_signals _ s
  case overspeedTimeLimit => exact happens_apart overspeedBegins_signals _ s
  case armPeriod => exact expires_apart armPeriodBody_signals _ s
  case motionTimerExpiry a => exact expires_apart (motionExpired_signals a) _ s
  case floatTimerExpiry a => exact expires_apart (floatExpired_signals a) _ s
  case waitTimerExpiry a => exact expires_apart (waitExpired_signals a) _ s
  case allocatorPeriod => exact expires_apart (body := allocatorBody) (fun _ => rfl) _ s
  case sprayPeriod => exact expires_apart sprayBody_signals _ s
  case lingerEnd => exact happens_apart (body := onSpray endLinger) (fun _ => rfl) _ s
  case intervalTimerExpiry ch => exact expires_apart (intervalExpired_signals ch) _ s
  case sendCompletion ch => exact happens_apart (fun u => signals_of_ends (completeIfDone_sends ch u).ends) _ s
  case cutoffActive =>
    exact .ite (.stay s) (.ite (.next (event_apart cutoffActiveBody_signals s)) (.next (.of_signals rfl)))
  case cutoffInactive =>
    exact .ite (.stay s) (.ite (.next (event_apart cutoffInactiveBody_signals s)) (.next (.of_signals rfl)))
  case releaseTimerExpiry => exact expires_apart weighRelease_signals _ s
  case detectionTimeExpiry k n => exact expires_apart (reportEnded_signals k n) _ s
  case ignitionShutdown => exact execIgnitionShutdown_ranges s
  case shutdownTimerExpiry => exact execShutdownTimerExpiry_ranges s
  case sleepEntry => exact .next (sleepIfDue_ranges s)
  case wake => exact execWake_ranges s
  case coldStart => exact execColdStart_ranges s
  case serviceRestart => exact .next (restartIfDue_ranges s)
  case inactivityTimerExpiry => exact expires_apart (body := closeSession) (fun _ => rfl) _ s
  case storePageStep b => exact execStorePageStep_ranges b s
  case storeCompletion => exact execStoreCompletion_ranges s
  case recallPageRead => exact execRecallPageRead_ranges s
  case recallCompletion => exact execRecallCompletion_ranges s
  case powerLoss => exact .ite (.stay s) (.next (.of_signals (losePower_signals s)))
  all_goals exact request_ranges _ s

/-- The idle step takes a command that is due, or lets time pass. -/
theorem idle_ranges (s : State) : AnswerKeepsRanges s (idle s) := by
  refine .ite ?_ (.stay s)
  split
  · next i _ => exact fun t e => KeepsRanges.trans (t := { s with choices := s.choices + 1 }) (.of_signals rfl) (exec_ranges i _ t e)
  · exact .next (passTime_ranges 1 s)

/-- Settles O7: the invariant, split into configurations, slots and sender records, is kept by every body of an event. -/
theorem stepKeepsSlotRanges : Obligations.StepKeepsSlotRanges := by
  unfold Obligations.StepKeepsSlotRanges
  intro s t ok e
  refine slotRangesOk_iff.2 ?_
  have ok := slotRangesOk_iff.1 ok
  unfold step at e
  split at e
  · next i rest _ => exact exec_ranges i { s with pending := rest } t e (KeepsRanges.of_signals (s := s) rfl ok)
  · exact idle_ranges s t e ok

end Sys2Proof.Signals
end

section
/-! SUPPORT. Readings, the expiry of a freshness timer, and tokens of DIRECT entries: O25, O26 and O20. -/

namespace Sys2Proof.Signals
open Sys2Proof Sys2Proof.Machine

/-! ## Readings (O25) -/

theorem slotValue_eq (c : SlotCfg) (r : SlotRun) :
    slotValue c r = if r.status = .fresh ∨ c.policy = .hold then r.last else c.dflt := by
  unfold slotValue
  cases r.status <;> cases c.policy <;> simp

theorem role_bound {s : State} {x : Role} {n : Fin 48} (h : s.tables.roles[x.place] = some n) :
    s.role x = { value := s.slotReads n, fresh := s.slots[n].status == .fresh } := by
  unfold State.role; rw [h]

theorem role_unbound {s : State} {x : Role} (h : s.tables.roles[x.place] = none) :
    s.role x = { value := x.dflt, fresh := false } := by
  unfold State.role; rw [h]

theorem roleDflt_eq (x : Role) : x.dflt = if x = .park then 1 else 0 := by
  unfold Role.dflt; split <;> simp_all

/-- Settles O25: the reading of a slot by status and policy, of a role by its binding. -/
theorem slotAndRoleReadings : Obligations.SlotAndRoleReadings := by
  unfold Obligations.SlotAndRoleReadings
  intro s n r
  refine ⟨slotValue_eq _ _, fun h => ?_, fun h => ?_⟩
  · exact role_bound h
  · rw [role_unbound h, roleDflt_eq]

/-! ## The acknowledgement that an event's signals bring (R38) -/

/-- Only supervisor, acknowledgement reading, restart lock, arms and marks differ: what weighing FAULT_ACK does. -/
def Acks (s t : State) : Prop :=
  t = { s with faults := t.faults, ackReading := t.ackReading, gov := { s.gov with lock := t.gov.lock }, arms := t.arms,
               ev := t.ev }

theorem Acks.trans {s t u : State} (h : Acks s t) (k : Acks t u) : Acks s u := by
  unfold Acks at *; rw [k, h]

theorem unfaultArm_acks (s : State) (a) : Acks s (unfaultArm s a) := by
  unfold unfaultArm; dsimp only; split <;> rfl

theorem acknowledge_acks (s : State) : Acks s (acknowledge s) :=
  Acks.trans (t := { s with faults := s.faults.acknowledged, gov.lock := false }) rfl
    (foldl_of_step Acks (fun _ => rfl) (fun _ _ _ => Acks.trans) _ unfaultArm_acks _ _)

theorem weighAck_acks (s : State) : Acks s (weighAck s) := by
  have read : Acks s { s with ackReading := (s.role .faultAck).value } := rfl
  unfold weighAck; dsimp only; split
  · exact read.trans (acknowledge_acks _)
  · exact read

theorem Acks.gov {s t : State} (h : Acks s t) : t.gov = { s.gov with lock := t.gov.lock } := by unfold Acks at h; rw [h]

/-- FAULT_ACK that reads as before brings nothing. -/
theorem weighAck_same {s : State} (h : (s.role .faultAck).value = s.ackReading) : weighAck s = s := by
  have read : { s with ackReading := (s.role .faultAck).value } = s := by rw [h]
  have no : ¬(s.ackReading = 0 ∧ s.ackReading ≠ 0) := fun ⟨z, nz⟩ => nz z
  unfold weighAck
  simp only [h, if_neg no]

theorem role_of_signals {s t : State} (h : signals t = signals s) (x : Role) : t.role x = s.role x := by
  unfold State.role State.slotReads
  rw [tables_of_signals h, slots_of_signals h]

/-- What an event of the signal store may change: what reports, votes, the acknowledgement and changes of sender records
do. -/
def Feeds (s t : State) : Prop :=
  t = { s with senders := t.senders, slots := t.slots, faults := t.faults, ackReading := t.ackReading, gov := t.gov,
               arms := t.arms, ev := t.ev }

theorem Feeds.trans {s t u : State} (h : Feeds s t) (k : Feeds t u) : Feeds s u := by
  unfold Feeds at *; rw [k, h]
theorem Acks.feeds {s t : State} (h : Acks s t) : Feeds s t := by unfold Acks at h; unfold Feeds; rw [h]
theorem Votes.feeds {s t : State} (h : Votes s t) : Feeds s t := by unfold Votes at h; unfold Feeds; rw [h]
theorem feeds_of_reports {s t : State} (h : Reports s t) : Feeds s t := (Votes.of_reports h).feeds
theorem Feeds.ports {s t : State} (h : Feeds s t) : t.ports = s.ports := by unfold Feeds at h; rw [h]
theorem Feeds.written {s t : State} (h : Feeds s t) : t.written = s.written := by unfold Feeds at h; rw [h]
theorem Feeds.tables {s t : State} (h : Feeds s t) : t.tables = s.tables := by unfold Feeds at h; rw [h]

theorem ackReading_of_reports {s t : State} (h : Reports s t) : t.ackReading = s.ackReading := by unfold Reports at h; rw [h]

/-! ## Expiry of a freshness timer (O26) -/

/-- A slot whose freshness timer has run out. -/
def ranOut (n : Fin 48) (s : State) : State := onSlot n (fun r => { r with timer := none, status := .stale }) s

theorem freshnessExpired_eq (n : Fin 48) (s : State) :
    freshnessExpired n s = weighAck (reportBegun .signalStale n.val s.tables.slots[n].severity (ranOut n s)) := rfl

theorem openedAt_ackReading (n : Nat) (s : State) : (s.openedAt n).ackReading = s.ackReading := advance_ackReading n s

/-- Settles O26: the body is the report of the slot made STALE, and then the weighing of FAULT_ACK. -/
theorem freshnessRunsOut : Obligations.FreshnessRunsOut := by
  unfold Obligations.FreshnessRunsOut
  intro n s
  refine ⟨fun r run timer => .of (expires_of run timer) ?_, fun h => expires_not h⟩
  rw [← openedAt_tables r s, ← openedAt_ackReading r s, freshnessExpired_eq]
  generalize s.openedAt r = w
  have report := reportBegun_reports .signalStale n.val w.tables.slots[n].severity (ranOut n w)
  have same := weighAck_signals (reportBegun .signalStale n.val w.tables.slots[n].severity (ranOut n w))
  have acked := weighAck_acks (reportBegun .signalStale n.val w.tables.slots[n].severity (ranOut n w))
  have feeds : Feeds w _ := (feeds_of_reports (s := ranOut n w) report).trans acked.feeds
  refine ⟨slots_of_signals same, fun h => weighAck_same ?_, ?_, ?_⟩
  · rw [ackReading_of_reports report, ← role_of_signals same]
    exact h
  · unfold Feeds at feeds
    rw [(senders_of_signals same).trans (reportBegun_senders _ _ _ _)] at feeds
    exact feeds
  · rw [acked.gov, report.gov]; rfl

/-! ## A frame that an entry wins -/

/-- A frame on the frame path that an entry wins is the event in which the entry's action is carried out. -/
theorem exec_frameWon {q : Port} {f : Frame} {s : State} {i : Fin 96} (h : FrameOnPath q f s) (won : lookup s q f = some i) :
    exec (.frameReceived q f) s = .next (finish (carryOut i q f s.opened)) := by
  obtain ⟨run, on, wf, noRequest⟩ := h
  have received : receive q f s.opened = carryOut i q f s.opened := by
    have path : isRequest s.opened q f = false := noRequest
    have found : lookup s.opened q f = some i := won
    unfold receive framePath
    rw [path, found]; rfl
  show execFrameReceived q f s = _
  unfold execFrameReceived
  rw [wf, if_pos rfl, happens_of run on, received]

/-- TAKE forwards nothing (01 R13). -/
theorem forwardAction_take {e : MatchEntry} (h : e.action = .take) (q f) (s : State) : forwardAction e q f s = s := by
  unfold forwardAction; rw [h]

theorem carryOut_direct {i : Fin 96} {s : State} (h : s.tables.entries[i].mode = .direct) (q f) :
    carryOut i q f s = forwardAction s.tables.entries[i] q f (applyDirect s.tables.entries[i] f.data s) := by
  unfold carryOut; dsimp only; rw [h]

/-- A DIRECT entry that takes a frame by one pick. -/
theorem carryOut_onePick {i : Fin 96} {s : State} {p : Pick} (mode : s.tables.entries[i].mode = .direct)
    (action : s.tables.entries[i].action = .take) (picks : s.tables.entries[i].picks = [p]) (q : Port) (f : Frame) :
    carryOut i q f s = weighAck (refreshByPick f.data (applyDirectPick f.data s p) p) := by
  rw [carryOut_direct mode, forwardAction_take action]
  unfold applyDirect
  rw [picks]; rfl

/-! ## Paired refresh by tokens (O20) -/

theorem tokenSlot_votes (n x) (s : State) : Votes s (tokenSlot n x s) := by unfold tokenSlot; split <;> rfl
theorem refreshSlot_votes (n) (s : State) : Votes s (refreshSlot n s) :=
  (onSlot_votes n _ s).trans (.of_reports (reportEndedIf_reports _ _ _ _))

/-- What a token makes of a slot with paired refresh (02 R24). -/
def tokenRun (c : SlotCfg) (x : Int) (r : SlotRun) : SlotRun :=
  let even := r.evenSeen || decide (x % 2 = 0)
  let odd := r.oddSeen || decide (x % 2 ≠ 0)
  if even && odd then { r with status := .fresh, evenSeen := false, oddSeen := false, timer := c.fullTimer }
  else { r with evenSeen := even, oddSeen := odd }

/-- The token marks its parity. -/
theorem tokenSlot_paired {n : Fin 48} {s : State} (h : s.tables.slots[n].paired = true) (x : Int) :
    (tokenSlot n x s).slots = s.slots.set n
      { s.slots[n] with evenSeen := s.slots[n].evenSeen || decide (x % 2 = 0)
                        oddSeen := s.slots[n].oddSeen || decide (x % 2 ≠ 0) } := by
  unfold tokenSlot
  rw [if_pos h, onSlot_slots]
  by_cases even : x % 2 = 0 <;> simp [even]

theorem refreshSlot_paired {n : Fin 48} {s : State} (h : s.tables.slots[n].paired = true) :
    (refreshSlot n s).slots = s.slots.set n
      { s.slots[n] with status := .fresh, evenSeen := false, oddSeen := false, timer := s.tables.slots[n].fullTimer } := by
  unfold refreshSlot
  simp only [reportEndedIf_slots, onSlot_slots, h, if_true]

theorem applyDirectPick_token {p : Pick} {s : State} {d : List Byte} {x : Int} (role : p.role = .token)
    (vote : s.tables.slots[p.slot].vote = .none) (result : p.result d = some x) :
    applyDirectPick d s p = tokenSlot p.slot x s := by
  unfold applyDirectPick; rw [result, role]; exact if_pos vote

theorem refreshByPick_token {p : Pick} {s : State} {d : List Byte} {x : Int} (role : p.role = .token)
    (vote : s.tables.slots[p.slot].vote = .none) (result : p.result d = some x) :
    refreshByPick d s p =
      if s.tables.slots[p.slot].paired && s.slots[p.slot].evenSeen && s.slots[p.slot].oddSeen then refreshSlot p.slot s
      else s := by
  unfold refreshByPick
  dsimp only
  rw [result, vote, role]
  cases s.tables.slots[p.slot].paired <;> rfl

/-- The one TOKEN pick of a frame, with the refresh that follows it. -/
theorem tokenPick_effect {p : Pick} {s : State} {d : List Byte} {x : Int} (role : p.role = .token)
    (vote : s.tables.slots[p.slot].vote = .none) (result : p.result d = some x) :
    Votes s (refreshByPick d (applyDirectPick d s p) p)
    ∧ (refreshByPick d (applyDirectPick d s p) p).slots = s.slots.set p.slot
        (if s.tables.slots[p.slot].paired = false then s.slots[p.slot]
         else tokenRun s.tables.slots[p.slot] x s.slots[p.slot]) := by
  have marks := tokenSlot_votes p.slot x s
  have cfg : (tokenSlot p.slot x s).tables.slots[p.slot] = s.tables.slots[p.slot] := by rw [marks.tables]
  rw [applyDirectPick_token role vote result, refreshByPick_token role (cfg ▸ vote) result, cfg]
  cases paired : s.tables.slots[p.slot].paired with
  | false =>
    have ignored : tokenSlot p.slot x s = s := if_neg (by rw [paired]; decide)
    rw [ignored]
    exact ⟨.refl s, by simp⟩
  | true =>
    have run : (tokenSlot p.slot x s).slots[p.slot] =
        { s.slots[p.slot] with evenSeen := s.slots[p.slot].evenSeen || decide (x % 2 = 0)
                               oddSeen := s.slots[p.slot].oddSeen || decide (x % 2 ≠ 0) } := by
      simp [tokenSlot_paired paired]
    rw [run]
    unfold tokenRun
    dsimp only
    rw [Bool.true_and, if_neg (by decide : ¬true = false)]
    split
    · refine ⟨marks.trans (refreshSlot_votes _ _), ?_⟩
      rw [refreshSlot_paired (cfg ▸ paired), run, cfg, tokenSlot_paired paired, Vector.set_set]
    · exact ⟨marks, tokenSlot_paired paired x⟩

/-- Settles O20: the TOKEN pick marks a parity, and the refresh after it needs both. -/
theorem tokenPairRefreshes : Obligations.TokenPairRefreshes := by
  unfold Obligations.TokenPairRefreshes
  intro q f s i p x path won action mode picks role vote result
  refine .of (exec_frameWon path won) ?_
  obtain ⟨votes, slots⟩ := tokenPick_effect (s := s.opened) (d := f.data) role vote result
  rw [carryOut_onePick (s := s.opened) mode action picks]
  generalize refreshByPick f.data _ p = v at votes slots
  have acked := (weighAck_acks v).feeds
  have same := weighAck_signals v
  refine ⟨?_, fun n ne => ?_, acked.ports.trans votes.feeds.ports, (senders_of_signals same).trans votes.senders⟩
  · rw [slots_of_signals same, slots]
    exact Vector.getElem_set_self p.slot.isLt
  · have ne' : p.slot.val ≠ n.val := fun d => ne (Fin.ext d.symm)
    rw [slots_of_signals same, slots]
    simp [Vector.getElem_set_ne, ne', State.opened]

end Sys2Proof.Signals
end

section
/-! SUPPORT. A frame that a PER_SENDER entry wins (02 R30, R31): O27. -/

namespace Sys2Proof.Signals
open Sys2Proof Sys2Proof.Machine

/-! ## A frame of a PER_SENDER entry (O27) -/

theorem valuePick_one {e : MatchEntry} {v : Pick} (picks : e.picks = [v]) (role : v.role = .value) : e.valuePick = some v := by
  unfold MatchEntry.valuePick; rw [picks]; simp [role]

theorem carryOut_refused {i : Fin 96} {s t : State} {q : Port} {f : Frame} {v : Pick}
    (mode : s.tables.entries[i].mode = .perSender) (names : s.tables.entries[i].valuePick = some v)
    (refused : presentSender q f i v.slot s = (none, t)) : carryOut i q f s = t := by
  unfold carryOut; dsimp only; rw [mode, names]; dsimp only; rw [refused]

theorem carryOut_taken {i : Fin 96} {s t : State} {q : Port} {f : Frame} {v : Pick} {j : Fin 24}
    (mode : s.tables.entries[i].mode = .perSender) (names : s.tables.entries[i].valuePick = some v)
    (action : s.tables.entries[i].action = .take) (taken : presentSender q f i v.slot s = (some j, t)) :
    carryOut i q f s = weighAck (applySender j s.tables.entries[i] f.data t) := by
  unfold carryOut; dsimp only; rw [mode, names]; dsimp only; rw [taken]
  exact forwardAction_take action _ _ _

theorem hasKey_iff {q : Port} {f : Frame} {r : SenderRec} :
    r.hasKey q f = true ↔ r.port = q ∧ r.fmt = f.fmt ∧ r.id = f.id := by
  unfold SenderRec.hasKey; simp [and_assoc]

/-- No record of the table has the frame's key. -/
theorem vfind_key_none {s : State} {q : Port} {f : Frame}
    (h : ∀ (k : Fin 24) (r : SenderRec), s.senders[k] = some r → ¬r.hasKey q f = true) :
    vfind s.senders (fun o => o.any (SenderRec.hasKey q f)) = none := by
  refine vfind_eq_none fun k => ?_
  cases e : s.senders[k] with
  | none => rfl
  | some r => simpa using h k r e

/-- A full table without the frame's record refuses it (02 R30). -/
theorem presentSender_full {s : State} {q : Port} {f : Frame}
    (full : ∀ k : Fin 24, ∃ r, s.senders[k] = some r ∧ ¬r.hasKey q f = true) (i : Fin 96) (n : Fin 48) :
    presentSender q f i n s = (none, reportBegun .senderTableFull 0 1 s) := by
  have unknown := vfind_key_none (s := s) (q := q) (f := f) fun k r e => by
    obtain ⟨r', e', h⟩ := full k
    exact Option.some.inj (e'.symm.trans e) ▸ h
  have noPlace : vfind s.senders (·.isNone) = none := vfind_eq_none fun k => by
    obtain ⟨r, e, -⟩ := full k
    rw [e]; rfl
  unfold presentSender
  rw [unknown, noPlace]

/-- A new record is made in the lowest free place (02 R30). -/
theorem presentSender_new {s : State} {q : Port} {f : Frame} {j : Fin 24} (free : s.senders[j] = none)
    (lowest : ∀ k : Fin 24, k < j → s.senders[k] ≠ none)
    (unknown : ∀ (k : Fin 24) (r : SenderRec), s.senders[k] = some r → ¬r.hasKey q f = true) (i : Fin 96) (n : Fin 48) :
    presentSender q f i n s = (some j, createSender j q f i n s) := by
  have place : vfind s.senders (·.isNone) = some j :=
    vfind_eq_some j (by rw [free]; rfl) fun k lt =>
      Option.isNone_eq_false_iff.2 (Option.isSome_iff_ne_none.2 (lowest k lt))
  unfold presentSender
  rw [vfind_key_none unknown, place]

/-- A frame whose record the table holds is given that record's place (02 R30). -/
theorem presentSender_known {s : State} {q : Port} {f : Frame} {j : Fin 24} {r : SenderRec} {i : Fin 96}
    (here : s.senders[j] = some r) (key : r.hasKey q f = true) (entry : r.entry = i)
    (only : ∀ (k : Fin 24) (p : SenderRec), s.senders[k] = some p → p.hasKey q f = true → k = j) (n : Fin 48) :
    presentSender q f i n s = (some j, s) := by
  have place : vfind s.senders (fun o => o.any (SenderRec.hasKey q f)) = some j := by
    refine vfind_eq_some j (by rw [here]; exact key) fun k lt => ?_
    cases e : s.senders[k] with
    | none => rfl
    | some p =>
      by_contra c
      have := only k p e (by simpa using c)
      omega
  unfold presentSender
  rw [place]
  dsimp only
  rw [here, Option.any_some, entry, beq_self_eq_true, if_pos rfl]

/-- A record that takes a value under R31 without paired refresh: FRESH, silent time 0, its timer restarted. -/
def takenRec (c : SlotCfg) (y : Int) (number : Nat) (r : SenderRec) : SenderRec :=
  { r with last := some y, written := number, fresh := true, silentUs := 0, timer := c.fullTimer }

/-- What the one VALUE pick of a PER_SENDER entry leaves, into a slot without paired refresh (02 R31): the record written
and refreshed, then the vote. -/
theorem applySender_onePick {e : MatchEntry} {v : Pick} {d : List Byte} {x : Int} {s : State} {j : Fin 24} {r : SenderRec}
    (picks : e.picks = [v]) (role : v.role = .value) (result : v.result d = some x)
    (unpaired : s.tables.slots[v.slot].paired = false) (here : s.senders[j] = some r) :
    let c := s.tables.slots[v.slot]
    let y := clampInt c.min c.max x
    ∃ u, applySender j e d s = recompute v.slot u ∧ u.senders = s.senders.set j (some (takenRec c y (s.written + 1) r))
      ∧ u.slots = s.slots.set v.slot { s.slots[v.slot] with clamped := y != x }
      ∧ u.written = s.written + 1 ∧ u.ports = s.ports ∧ u.tables = s.tables := by
  have names := valuePick_one picks role
  refine ⟨refreshSender j v.slot (writeSender j v.slot x s), ?_, ?_, rfl, rfl, rfl, rfl⟩
  · unfold applySender
    rw [names, picks]
    dsimp only
    rw [result]
    dsimp only [List.foldl_cons, List.foldl_nil]
    unfold applySenderToken
    rw [role]
  · have mapped : s.senders[j.val] = some r := here
    have off : (writeSender j v.slot x s).tables.slots[v.slot].paired = false := unpaired
    unfold refreshSender
    simp only [off, onSender_senders]
    unfold writeSender
    simp [mapped, takenRec]

theorem recompute_otherSlot {n k : Fin 48} (h : k ≠ n) (s : State) : (recompute n s).slots[k] = s.slots[k] := by
  by_cases none : s.tables.slots[n].vote = .none
  · rw [recompute_none none]
  · have ne : n.val ≠ k.val := fun d => h (Fin.ext d.symm)
    rw [recompute_slots none]
    simp [Vector.getElem_set_ne, ne]

theorem votedRun_clamped (c : SlotCfg) (l : List SenderRec) (r : SlotRun) : (votedRun c l r).clamped = r.clamped := by
  by_cases enough : c.minFresh ≤ l.length
  · rw [votedRun_enough r enough]
  · rw [votedRun_few r (by omega)]

/-- A vote leaves the clamped mark. -/
theorem recompute_clamped (n : Fin 48) (s : State) : (recompute n s).slots[n].clamped = s.slots[n].clamped := by
  by_cases none : s.tables.slots[n].vote = .none
  · rw [recompute_none none]
  · rw [recompute_slots none]
    simp [votedRun_clamped]

/-- A frame that is given place `j` with record `r` there: the record takes the clamped value (02 R31). -/
theorem frame_taken {q : Port} {f : Frame} {s t : State} {i : Fin 96} {v : Pick} {x : Int} {j : Fin 24} {r : SenderRec}
    (path : FrameOnPath q f s) (won : lookup s q f = some i) (mode : s.tables.entries[i].mode = .perSender)
    (action : s.tables.entries[i].action = .take) (picks : s.tables.entries[i].picks = [v]) (role : v.role = .value)
    (result : v.result f.data = some x) (unpaired : s.tables.slots[v.slot].paired = false)
    (given : presentSender q f i v.slot s.opened = (some j, t)) (only : t = { s.opened with senders := t.senders })
    (here : t.senders[j] = some r) (others : ∀ o, t.senders.set j o = s.senders.set j o) :
    let c := s.tables.slots[v.slot]
    let y := clampInt c.min c.max x
    Completes (.frameReceived q f) s fun u =>
      u.senders = s.senders.set j (some (takenRec c y (s.written + 1) r)) ∧ u.written = s.written + 1
      ∧ u.slots[v.slot].clamped = (y != x) ∧ (∀ n : Fin 48, n ≠ v.slot → u.slots[n] = s.slots[n])
      ∧ u.ports = s.ports ∧ u.tables = s.tables := by
  have tables : t.tables = s.tables := by rw [only]; rfl
  have slots : t.slots = s.slots := by rw [only]; rfl
  have written : t.written = s.written := by rw [only]; rfl
  have ports : t.ports = s.ports := by rw [only]; rfl
  obtain ⟨u, applied, senders', slots', written', ports', tables'⟩ :=
    applySender_onePick (s := t) (e := s.tables.entries[i]) picks role result (tables ▸ unpaired) here
  rw [tables, written, others] at senders'
  rw [tables, slots] at slots'
  have carried : carryOut i q f s.opened = weighAck (recompute v.slot u) :=
    applied ▸ carryOut_taken (s := s.opened) mode (valuePick_one picks role) action given
  have same := weighAck_signals (recompute v.slot u)
  have feeds : Feeds u (weighAck (recompute v.slot u)) := (recompute_votes v.slot u).feeds.trans (weighAck_acks _).feeds
  refine .of (exec_frameWon path won) ?_
  rw [carried, slots_of_signals same]
  refine ⟨?_, feeds.written.trans (written'.trans (congrArg (· + 1) written)), ?_, fun n ne => ?_,
    feeds.ports.trans (ports'.trans ports), feeds.tables.trans (tables'.trans tables)⟩
  · exact (senders_of_signals same).trans ((recompute_votes v.slot u).senders.trans senders')
  · rw [recompute_clamped, slots']
    simp
  · have ne' : v.slot.val ≠ n.val := fun d => ne (Fin.ext d.symm)
    rw [recompute_otherSlot ne, slots']
    simp [Vector.getElem_set_ne, ne']

/-- Settles O27: the three places `presentSender` can give a frame. -/
theorem senderFrames : Obligations.SenderFrames := by
  unfold Obligations.SenderFrames
  intro q f s i v x path won mode action picks role result unpaired
  refine ⟨fun full => ?_, fun j free lowest unknown => ?_, fun j r here mine entry only => ?_⟩
  · have refused := presentSender_full (s := s.opened) (q := q) (f := f) (i := i) (n := v.slot) fun k => by
      obtain ⟨r, e, h⟩ := full k
      exact ⟨r, e, fun c => h (hasKey_iff.1 c)⟩
    exact .of (exec_frameWon path won) (carryOut_refused (s := s.opened) mode (valuePick_one picks role) refused)
  · have given := presentSender_new (s := s.opened) (q := q) (f := f) free lowest
      (fun k r e c => unknown k r e (hasKey_iff.1 c)) i v.slot
    exact frame_taken path won mode action picks role result unpaired given rfl (by simp [createSender]; rfl)
      (by simp [createSender, State.opened])
  · have given := presentSender_known (s := s.opened) (f := f) here (hasKey_iff.2 mine) entry
      (fun k p e c => only k p e (hasKey_iff.1 c)) v.slot
    exact frame_taken path won mode action picks role result unpaired given rfl here fun _ => rfl

end Sys2Proof.Signals
end

section
/-! SUPPORT. What acknowledgements leave of the fault list, and what ends: the expiries of sender records (02 R32, R33): O28. -/

namespace Sys2Proof.Signals
open Sys2Proof Sys2Proof.Machine

/-! ## Conditions that an acknowledgement leaves, and conditions that are gone -/

/-- The list has the condition ACTIVE, as a record or merged into an ACTIVE aggregate: no acknowledgement removes it. -/
def Active (f : Faults) (k : Kind) (n : Nat) : Prop :=
  (∃ r ∈ f.records, r.is k n = true ∧ r.latched = false)
  ∨ ∃ a, f.aggregate = some a ∧ a.latched = false ∧ (k, n) ∈ a.merged

theorem Active.holds {f : Faults} {k : Kind} {n : Nat} (h : Active f k n) : f.holds k n = true := by
  rcases h with ⟨r, m, is, l⟩ | ⟨a, ha, -, m⟩
  · unfold Faults.holds
    rw [List.any_eq_true.2 ⟨r, m, by rw [is, l]; rfl⟩, Bool.true_or]
  · refine holds_of_merged ?_
    unfold Faults.mergedHas
    rw [ha]
    simpa using m

theorem mergeReport_active (k n sev c) (s : State) : Active (mergeReport k n sev c s).faults k n := by
  right
  unfold mergeReport
  split
  · exact ⟨_, rfl, rfl, List.mem_singleton.2 rfl⟩
  · next a _ =>
    rw [markFaultChangeIf_faults]
    refine ⟨a.join k n c sev, rfl, rfl, ?_⟩
    unfold FaultRec.join
    dsimp only
    split
    · next h => simpa using h
    · simp

theorem placeRecord_active (i k n sev) (s : State) : Active (placeRecord i k n sev s).faults k n :=
  .inl ⟨newRecord s k n sev, mem_records.2 (.inl ⟨i, by simp [placeRecord, markFaultChange]⟩), is_iff.2 ⟨rfl, rfl⟩, rfl⟩

/-- A reported condition is ACTIVE (10 R156 to R158). -/
theorem reportBegun_active (k : Kind) (n : Nat) (sev : Fin 4) (s : State) : Active (reportBegun k n sev s).faults k n := by
  unfold reportBegun
  dsimp only
  split
  · next i found =>
    obtain ⟨r, here, is⟩ := find_some found
    have here' : (s.faults.settled k n).places[i] = some r := here
    rw [here']
    dsimp only
    rw [markFaultChangeIf_faults]
    exact .inl ⟨r.takeReport (!s.faults.waits k n) sev, mem_records.2 (.inl ⟨i, by simp⟩), is_iff.2 is, rfl⟩
  · split
    · exact mergeReport_active ..
    · unfold enterRecord
      split
      · exact placeRecord_active ..
      · split
        · exact placeRecord_active ..
        · exact mergeReport_active ..

theorem acknowledge_faults (s : State) : (acknowledge s).faults = s.faults.acknowledged := by
  have each (u : State) (a : Arm) : (unfaultArm u a).faults = u.faults := by
    unfold unfaultArm; dsimp only; split <;> rfl
  exact foldl_field State.faults _ each allArms _

/-- Weighing FAULT_ACK leaves the list, or removes its LATCHED records. -/
theorem weighAck_faults (s : State) : (weighAck s).faults = s.faults ∨ (weighAck s).faults = s.faults.acknowledged := by
  unfold weighAck; dsimp only; split
  · exact .inr (acknowledge_faults _)
  · exact .inl rfl

theorem acknowledged_active {f : Faults} {k : Kind} {n : Nat} (h : Active f k n) : Active f.acknowledged k n := by
  rcases h with ⟨r, m, is, l⟩ | ⟨a, ha, l, m⟩
  · refine .inl ⟨r, mem_records.2 ?_, is, l⟩
    rcases mem_records.1 m with ⟨i, e⟩ | e
    · exact .inl ⟨i, by have e' : f.places[i.val] = some r := e; simp [Faults.acknowledged, e', l, Option.filter]⟩
    · exact .inr (by simp [Faults.acknowledged, e, l, Option.filter])
  · exact .inr ⟨a, by simp [Faults.acknowledged, ha, l, Option.filter], l, m⟩

theorem weighAck_active {s : State} {k : Kind} {n : Nat} (h : Active s.faults k n) : Active (weighAck s).faults k n := by
  rcases weighAck_faults s with e | e
  · rw [e]; exact h
  · rw [e]; exact acknowledged_active h

/-- The list has no ACTIVE record of the condition, nor has it merged. -/
def Gone (f : Faults) (k : Kind) (n : Nat) : Prop :=
  (∀ (i : Fin 15) (r : FaultRec), f.places[i] = some r → r.is k n = true → r.latched = true)
  ∧ ∀ a, f.aggregate = some a → a.kind ≠ k ∧ (k, n) ∉ a.merged

theorem Gone.holds {f : Faults} {k : Kind} {n : Nat} (h : Gone f k n) : f.holds k n = false := by
  obtain ⟨places, aggregate⟩ := h
  unfold Faults.holds Faults.mergedHas
  rw [Bool.or_eq_false_iff]
  constructor
  · refine List.any_eq_false.2 fun r m c => ?_
    rw [Bool.and_eq_true] at c
    obtain ⟨is, l⟩ := c
    rcases mem_records.1 m with ⟨i, e⟩ | e
    · rw [places i r e is] at l; cases l
    · exact (aggregate r e).1 (is_iff.1 is).1
  · cases e : f.aggregate with
    | none => rfl
    | some a => simpa using (aggregate a e).2

/-- A replaced place keeps the condition gone when its new record is of another condition or LATCHED. -/
theorem Gone.setPlace {f g : Faults} {k : Kind} {n : Nat} (h : Gone f k n) (i : Fin 15) (o : Option FaultRec)
    (places : g.places = f.places.set i o) (aggregate : g.aggregate = f.aggregate)
    (new : ∀ r, o = some r → r.is k n = true → r.latched = true) : Gone g k n := by
  obtain ⟨old, agg⟩ := h
  refine ⟨fun j r e => ?_, aggregate ▸ agg⟩
  rw [places] at e
  by_cases c : i = j
  · subst c; exact new r (by simpa using e)
  · have ne : i.val ≠ j.val := fun d => c (Fin.ext d)
    exact old j r (by simpa [Vector.getElem_set_ne, ne] using e)

theorem Gone.setAggregate {f g : Faults} {k : Kind} {n : Nat} (h : Gone f k n) (places : g.places = f.places)
    (new : ∀ a, g.aggregate = some a → a.kind ≠ k ∧ (k, n) ∉ a.merged) : Gone g k n :=
  ⟨places ▸ h.1, new⟩

section
variable {k k' : Kind} {n n' : Nat} (other : k' ≠ k) (general : k ≠ .faultListFull)
include other general

theorem mergeReport_gone (sev c) (s : State) (h : Gone s.faults k n) : Gone (mergeReport k' n' sev c s).faults k n := by
  unfold mergeReport
  split
  · refine h.setAggregate rfl fun a e => ?_
    cases e
    exact ⟨general.symm, fun m => other (congrArg Prod.fst (List.mem_singleton.1 m)).symm⟩
  · next a ha =>
    rw [markFaultChangeIf_faults]
    refine h.setAggregate rfl fun b e => ?_
    cases e
    obtain ⟨kind, merged⟩ := h.2 a ha
    refine ⟨kind, fun m => ?_⟩
    unfold FaultRec.join at m
    dsimp only at m
    split at m
    · exact merged m
    · rcases List.mem_append.1 m with m | m
      · exact merged m
      · exact other (congrArg Prod.fst (List.mem_singleton.1 m)).symm

omit general in
theorem placeRecord_gone (i sev) (s : State) (h : Gone s.faults k n) : Gone (placeRecord i k' n' sev s).faults k n :=
  h.setPlace i _ rfl rfl fun r e is => by
    cases e
    exact absurd (is_iff.1 is).1 other

/-- A report of another condition leaves a condition gone. -/
theorem reportBegun_gone (sev) (s : State) (h : Gone s.faults k n) : Gone (reportBegun k' n' sev s).faults k n := by
  unfold reportBegun
  dsimp only
  split
  · next i found =>
    obtain ⟨r, here, is⟩ := find_some found
    have here' : (s.faults.settled k' n').places[i] = some r := here
    rw [here']
    dsimp only
    rw [markFaultChangeIf_faults]
    refine h.setPlace i _ rfl rfl fun q e isq => ?_
    cases e
    exact absurd (is.1.symm.trans (is_iff.1 isq).1) other
  · split
    · exact mergeReport_gone other general _ _ _ h
    · unfold enterRecord
      split
      · exact placeRecord_gone other _ _ _ h
      · split
        · exact placeRecord_gone other _ _ _ h
        · exact mergeReport_gone other general _ _ _ h

end

/-- A record that stays in the list at its condition's end is LATCHED (10 R159). -/
theorem ended_latched {r q : FaultRec} (h : r.ended = some q) : q.latched = true := by
  unfold FaultRec.ended at h
  split at h
  · cases h; rfl
  · cases h

/-- An end of any condition leaves a condition gone. -/
theorem reportEnded_gone {k : Kind} {n : Nat} (k' n') (s : State) (h : Gone s.faults k n) :
    Gone (reportEnded k' n' s).faults k n := by
  unfold reportEnded
  dsimp only
  split
  · next i _ =>
    refine h.setPlace i _ rfl rfl fun r e _ => ?_
    obtain ⟨q, -, ended⟩ := Option.bind_eq_some_iff.1 e
    exact ended_latched ended
  · split
    · refine h.setAggregate rfl fun a e => ?_
      obtain ⟨b, hb, rfl⟩ := Option.map_eq_some_iff.1 e
      obtain ⟨kind, merged⟩ := h.2 b hb
      exact ⟨kind, fun m => merged (List.mem_of_mem_erase m)⟩
    · exact h

/-- A condition reported ended is gone from a list within its rules (10 R159). -/
theorem reportEnded_ends {k : Kind} (n : Nat) {s : State} (h : FaultListOk s) (general : k ≠ .faultListFull) :
    Gone (reportEnded k n s).faults k n := by
  obtain ⟨aggregate, -, unique, merged, -⟩ := h
  have kinds (a : FaultRec) (e : s.faults.aggregate = some a) : a.kind ≠ k := fun c => general (c.symm.trans (aggregate a e).1)
  unfold reportEnded
  dsimp only
  rw [settled_find, settled_mergedHas]
  cases found : s.faults.find k n with
  | some i =>
    obtain ⟨r, here, kind, subject⟩ := find_some found
    refine ⟨fun j q e is => ?_, fun a e => ⟨kinds a e, fun m => ?_⟩⟩
    · have left : (s.faults.places.set i (s.faults.places[i].bind FaultRec.ended))[j] = some q := e
      by_cases c : i = j
      · subst c
        rw [here] at left
        exact ended_latched (by simpa using left)
      · have ne : i.val ≠ j.val := fun d => c (Fin.ext d)
        have e' : s.faults.places[j] = some q := by simpa [Vector.getElem_set_ne, ne] using left
        obtain ⟨qk, qn⟩ := is_iff.1 is
        exact absurd (unique i j r q here e' (kind.trans qk.symm) (subject.trans qn.symm)) c
    · have := (merged a e).2 k n m
      rw [found] at this
      cases this
  | none =>
    have absent (j : Fin 15) (q : FaultRec) (e : s.faults.places[j] = some q) (is : q.is k n = true) : q.latched = true :=
      absurd (is_iff.1 is) (find_none_iff.1 found j q e)
    dsimp only
    split
    · refine ⟨absent, fun a e => ?_⟩
      obtain ⟨b, hb, rfl⟩ := Option.map_eq_some_iff.1 e
      exact ⟨kinds b hb, fun m => ((List.Nodup.mem_erase_iff (merged b hb).1).1 m).1 rfl⟩
    · next no =>
      refine ⟨absent, fun a e => ⟨kinds a e, fun m => no ?_⟩⟩
      unfold Faults.mergedHas
      rw [show s.faults.aggregate = some a from e]
      simpa using m

theorem weighAck_gone {s : State} {k : Kind} {n : Nat} (h : Gone s.faults k n) : Gone (weighAck s).faults k n := by
  rcases weighAck_faults s with e | e
  · rw [e]; exact h
  · rw [e]
    obtain ⟨places, aggregate⟩ := h
    refine ⟨fun i r here => ?_, fun a here => ?_⟩
    · simp only [Faults.acknowledged, Fin.getElem_fin, Vector.getElem_map, Option.filter_eq_some_iff] at here
      exact places i r here.1
    · simp only [Faults.acknowledged, Option.filter_eq_some_iff] at here
      exact aggregate a here.1

/-- A recompute reports of signals only. -/
theorem recompute_gone {n : Nat} (k : Kind) (general : k ≠ .faultListFull) (stale : Kind.signalStale ≠ k)
    (disagree : Kind.signalDisagree ≠ k) (m : Fin 48) (s : State) (h : Gone s.faults k n) :
    Gone (recompute m s).faults k n := by
  have decided : Gone (decideStatus m s).faults k n := by
    unfold decideStatus
    dsimp only
    split
    · unfold reportEndedIf
      split
      · exact reportEnded_gone _ _ _ h
      · exact h
    · split
      · exact reportBegun_gone stale general _ _ h
      · exact h
      · exact h
  have voted : Gone (revote m s).faults k n := by
    unfold revote; split <;> exact decided
  by_cases none : s.tables.slots[m].vote = .none
  · rw [recompute_none none]; exact h
  · rw [recompute_eq none]
    split
    · split
      · exact reportBegun_gone disagree general _ _ voted
      · exact reportEnded_gone _ _ _ voted
    · exact voted

/-! ## Expiry of a sender timer, end of a silent time (O28) -/

theorem openedAt_sender {s : State} {i : Fin 24} {r : SenderRec} (h : s.senders[i] = some r) (t : Nat) :
    ∃ r', (s.openedAt t).senders[i] = some r' ∧ r'.slot = r.slot := by
  cases t with
  | zero => exact ⟨r, h, rfl⟩
  | succ t =>
    have h' : s.senders[i.val] = some r := h
    exact ⟨r.pass (t + 1) s.tables.slots[r.slot].timeout, by simp [State.openedAt, advance, passTime, State.opened, h'], rfl⟩

theorem openedAt_faultListOk {s : State} (h : FaultListOk s) (t : Nat) : FaultListOk (s.openedAt t) := by
  cases t <;> exact h

/-- A record gone SILENT (02 R32). -/
def silence (i : Fin 24) (s : State) : State := onSender i (fun r => { r with timer := none, fresh := false, silentUs := 0 }) s

theorem senderExpired_eq {i : Fin 24} {s : State} {r : SenderRec} {n : Fin 48} (h : s.senders[i] = some r)
    (serves : r.slot = n) : senderExpired i s = weighAck (recompute n (silence i s)) := by
  subst serves
  unfold senderExpired; dsimp only; rw [h]; rfl

/-- A place emptied (02 R33). -/
def vacated (i : Fin 24) (s : State) : State := { s with senders := s.senders.set i none }

theorem removePlace_eq {i : Fin 24} {s : State} {r : SenderRec} {n : Fin 48} (h : s.senders[i] = some r)
    (serves : r.slot = n) : removePlace i s = recompute n (reportEnded .senderTableFull 0 (vacated i s)) := by
  subst serves
  unfold removePlace; rw [h]; rfl

/-- What a voted slot reads after its recompute when enough of its records are fresh (02 R34, R35). -/
theorem vote_enough {n : Fin 48} {s : State} (vote : s.tables.slots[n].vote ≠ .none)
    (enough : s.tables.slots[n].minFresh ≤ (freshSenders s n).length) (ne : freshSenders s n ≠ []) :
    let c := s.tables.slots[n]
    let fresh := freshSenders s n
    let x := (recompute n s).slots[n]
    x.status = .fresh ∧ x.timer = none
    ∧ (c.vote = .latest → ∃ p ∈ fresh, x.last = p.value ∧ ∀ p' ∈ fresh, p'.written ≤ p.written)
    ∧ (c.vote = .highest → (∃ p ∈ fresh, x.last = p.value) ∧ ∀ p ∈ fresh, p.value ≤ x.last)
    ∧ (c.vote = .lowest ∨ c.vote = .agree → (∃ p ∈ fresh, x.last = p.value) ∧ ∀ p ∈ fresh, x.last ≤ p.value) := by
  dsimp only
  have run : (recompute n s).slots[n] = votedRun s.tables.slots[n] (freshSenders s n) s.slots[n] := by
    simp [recompute_slots vote]
  rw [run, votedRun_enough _ enough]
  refine ⟨rfl, rfl, fun v => ?_, fun v => ?_, fun v => ?_⟩
  · rw [v]; exact voteOf_latest ne
  · rw [v]; exact voteOf_highest ne
  · exact voteOf_lowest ne (by rcases v with v | v <;> rw [v] <;> decide) (by rcases v with v | v <;> rw [v] <;> decide)

/-- What it reads when too few are fresh: STALE from FRESH, reported, the last value kept (02 R34). -/
theorem vote_few {n : Fin 48} {s : State} (vote : s.tables.slots[n].vote ≠ .none)
    (few : (freshSenders s n).length < s.tables.slots[n].minFresh) :
    (recompute n s).slots[n] = { s.slots[n] with status := if s.slots[n].status = .fresh then .stale else s.slots[n].status }
    ∧ (s.slots[n].status = .fresh → s.tables.slots[n].vote ≠ .agree →
        Active (recompute n s).faults .signalStale n.val) := by
  refine ⟨?_, fun was na => ?_⟩
  · rw [← votedRun_few s.slots[n] few]
    simp [recompute_slots vote]
  · rw [recompute_stale vote na few was]
    exact reportBegun_active ..

/-- What the acknowledgement after a recompute leaves of it: slots, sender records, and what the recompute reported. -/
theorem weighedRecompute_effect (n : Fin 48) (s : State) :
    let u := weighAck (recompute n s)
    u.slots = (recompute n s).slots ∧ u.senders = s.senders ∧ freshSenders u n = freshSenders s n ∧ Feeds s u := by
  have votes := recompute_votes n s
  have same := weighAck_signals (recompute n s)
  have senders := (senders_of_signals same).trans votes.senders
  exact ⟨slots_of_signals same, senders, freshSenders_congr senders n, votes.feeds.trans (weighAck_acks _).feeds⟩

/-- A record of the running part whose slot's timeout counts its silent time has this much of it left (02 R32). -/
theorem silentLeft_silent {s : State} {r : SenderRec} (silent : r.fresh = false) (timeout : s.tables.slots[r.slot].timeout ≠ 0) :
    silentLeft s r = some (10000 * s.tables.slots[r.slot].timeout - r.silentUs) := by
  unfold silentLeft silentLimitUs
  dsimp only
  rw [if_neg (not_or.2 ⟨by simp [silent], timeout⟩)]
  exact congrArg some (by omega)

/-- Settles O28: the effects of the two bodies, on the record that time has run on to. -/
theorem senderTimesRunOut : Obligations.SenderTimesRunOut := by
  unfold Obligations.SenderTimesRunOut
  refine ⟨fun i s r t run here timer => ?_, fun i s r run here => ⟨fun silent timeout => ?_, fun no => ?_⟩⟩
  · have due : s.senders[i].bind (·.timer) = some t := by rw [here]; exact timer
    refine .of (expires_of run due) ?_
    obtain ⟨r', here', slot⟩ := openedAt_sender here t
    rw [senderExpired_eq here' slot, ← openedAt_tables t s]
    generalize s.openedAt t = w
    obtain ⟨slots, senders, fresh, feeds⟩ := weighedRecompute_effect r.slot (silence i w)
    dsimp only
    rw [fresh, slots]
    refine ⟨senders, fun n ne => recompute_otherSlot ne _, fun none => ?_,
      fun vote enough ne => vote_enough (s := silence i w) vote enough ne, fun vote few => ?_, fun agree apart => ?_, ?_⟩
    · rw [recompute_none (s := silence i w) none]; rfl
    · obtain ⟨run, stale⟩ := vote_few (s := silence i w) vote few
      rw [run]
      exact ⟨rfl, rfl, fun was na => (weighAck_active (stale was na)).holds⟩
    · obtain ⟨p, hp, p', hp', far⟩ := apart
      refine (weighAck_active ?_).holds
      rw [recompute_disagree (s := silence i w) agree (disagrees_of_apart hp hp' far)]
      exact reportBegun_active ..
    · rw [← slots]
      exact Feeds.trans (t := silence i w) rfl feeds
  · have due : s.senders[i].bind (silentLeft s) = some (10000 * s.tables.slots[r.slot].timeout - r.silentUs) := by
      rw [here]; exact silentLeft_silent silent timeout
    refine .of (expires_of run due) ?_
    obtain ⟨r', here', slot⟩ := openedAt_sender here (10000 * s.tables.slots[r.slot].timeout - r.silentUs)
    have list (ok : FaultListOk s) := openedAt_faultListOk ok (10000 * s.tables.slots[r.slot].timeout - r.silentUs)
    rw [removePlace_eq here' slot]
    generalize s.openedAt _ = w at list
    have ended := reportEnded_signals .senderTableFull 0 (vacated i w)
    obtain ⟨slots, senders, -, voted⟩ := weighedRecompute_effect r.slot (reportEnded .senderTableFull 0 (vacated i w))
    have feeds : Feeds w _ := Feeds.trans (t := vacated i w) rfl ((feeds_of_reports (reportEnded_reports _ _ _)).trans voted)
    dsimp only
    refine ⟨senders.trans (senders_of_signals ended), fun n ne => ?_, fun ok => ?_, feeds.ports, feeds.tables⟩
    · rw [slots, recompute_otherSlot ne, reportEnded_slots]; rfl
    · have gone := reportEnded_ends (s := vacated i w) 0 (list ok) (k := .senderTableFull) (by decide)
      exact (weighAck_gone (recompute_gone _ (by decide) (by decide) (by decide) _ _ gone)).holds
  · refine expires_not (.inr ?_)
    rw [here, Option.bind_some]
    unfold silentLeft
    exact if_pos (by simpa using no)

end Sys2Proof.Signals
end

section
/-! SUPPORT. What a capture update makes of the capture record (03 R47 to R51), and the invariant it establishes. -/

namespace Sys2Proof.SpeedCapture
open Sys2Proof Sys2Proof.Machine

/-! ## What the combination and the tests read -/

/-- In two states the combination and the tests read the same of both channels. -/
structure SameReads (s t : State) : Prop where
  fitted : ∀ ch, (t.capCfg ch).fitted = (s.capCfg ch).fitted
  status : ∀ ch, (t.capture.get ch).status = (s.capture.get ch).status
  measuring : ∀ ch, (t.capture.get ch).measuring = (s.capture.get ch).measuring
  speed : ∀ ch, (t.capture.get ch).speed = (s.capture.get ch).speed

theorem SameReads.refl (s : State) : SameReads s s := ⟨fun _ => rfl, fun _ => rfl, fun _ => rfl, fun _ => rfl⟩
theorem SameReads.trans {s t u : State} (h : SameReads s t) (k : SameReads t u) : SameReads s u :=
  ⟨fun ch => (k.fitted ch).trans (h.fitted ch), fun ch => (k.status ch).trans (h.status ch),
    fun ch => (k.measuring ch).trans (h.measuring ch), fun ch => (k.speed ch).trans (h.speed ch)⟩

/-- Both channels are usable and their speeds disagree (03 R48). -/
def apart (s : State) : Bool := usable s .a && usable s .b && !agree s.capture.a.speed s.capture.b.speed

/-- No channel is usable (03 R51). -/
def noneUsable (s : State) : Bool := !usable s .a && !usable s .b

namespace SameReads
variable {s t : State} (h : SameReads s t)
include h

theorem usable (ch : CapCh) : usable t ch = usable s ch := by
  unfold Machine.usable; rw [h.fitted, h.status]
theorem noneUsable : noneUsable t = noneUsable s := by
  unfold SpeedCapture.noneUsable; rw [h.usable, h.usable]
theorem apart : apart t = apart s := by
  have a : t.capture.a.speed = s.capture.a.speed := h.speed .a
  have b : t.capture.b.speed = s.capture.b.speed := h.speed .b
  unfold SpeedCapture.apart; rw [h.usable, h.usable, a, b]
theorem combined : combined t = combined s := by
  have a : t.capture.a.speed = s.capture.a.speed := h.speed .a
  have b : t.capture.b.speed = s.capture.b.speed := h.speed .b
  unfold Machine.combined; rw [h.usable, h.usable, a, b]
theorem lossHolds (ch : CapCh) : lossHolds t ch = lossHolds s ch := by
  unfold Machine.lossHolds; rw [h.fitted, h.status, h.usable, h.speed]
theorem returnHolds (ch : CapCh) : returnHolds t ch = returnHolds s ch := by
  unfold Machine.returnHolds; simp only [h.status, h.measuring, h.usable, h.speed]

end SameReads

/-! ## The capture update -/

/-- A channel's record after its loss and return tests (03 R49, R50). -/
def testedRun (s : State) (ch : CapCh) : CapRun :=
  let c := s.capture.get ch
  { c with lossT := testTimer (lossHolds s ch) Config.lossMs c.lossT
           returnT := testTimer (returnHolds s ch) Config.returnMs c.returnT }

/-- The disagreement timer after its test: started when the flag is set, stopped when it is not (03 R48). -/
def disagreementTimer (s : State) : Timer :=
  if apart s then (if s.capture.disagree then s.capture.disagreeT else msTimer Config.disagreementMs) else none

/-- The capture record after a capture update. -/
def updated (s : State) : Capture :=
  { a := testedRun s .a, b := testedRun s .b, s := combined s, disagree := apart s
    disagreeT := disagreementTimer s
    disagreeBegun := apart s && s.capture.disagreeBegun
    noneBegun := noneUsable s }

theorem updated_get (s : State) (ch : CapCh) : (updated s).get ch = testedRun s ch := by cases ch <;> rfl

/-- Only capture, supervisor and the event's marks differ: what a capture event does. -/
def Captures (s t : State) : Prop := t = { s with capture := t.capture, faults := t.faults, ev := t.ev }

theorem Captures.trans {s t u : State} (h : Captures s t) (k : Captures t u) : Captures s u := by
  unfold Captures at *; rw [k, h]
theorem Captures.of_reports {s t : State} (h : Reports s t) : Captures s t := by
  unfold Reports at h; unfold Captures; rw [h]
theorem Captures.tables {s t : State} (h : Captures s t) : t.tables = s.tables := by unfold Captures at h; rw [h]

theorem capture_of_reports {s t : State} (h : Reports s t) : t.capture = s.capture := by unfold Reports at h; rw [h]

theorem disagreementTest_captures (s : State) : Captures s (disagreementTest s) := by
  unfold disagreementTest; dsimp only; split
  · split <;> rfl
  · exact Captures.trans (by rfl) (.of_reports (reportEndedIf_reports _ _ _ _))
theorem speedNoneTest_captures (s : State) : Captures s (speedNoneTest s) := by
  unfold speedNoneTest; dsimp only; split
  · exact Captures.trans (by rfl) (.of_reports (reportBegun_reports _ _ _ _))
  · exact Captures.trans (by rfl) (.of_reports (reportEndedIf_reports _ _ _ _))
theorem lossReturnTest_captures (ch) (s : State) : Captures s (lossReturnTest ch s) := rfl

/-- A capture update changes capture, supervisor and marks only. -/
theorem captureUpdate_captures (s : State) : Captures s (captureUpdate s) :=
  Captures.trans (t := { s with capture.s := combined s }) rfl <| (disagreementTest_captures _).trans <|
    (lossReturnTest_captures _ _).trans <| (lossReturnTest_captures _ _).trans <| speedNoneTest_captures _

theorem disagreementTest_capture (s : State) : (disagreementTest s).capture =
    { s.capture with disagree := apart s, disagreeT := disagreementTimer s
                     disagreeBegun := apart s && s.capture.disagreeBegun } := by
  have flag : (usable s .a && usable s .b && !agree s.capture.a.speed s.capture.b.speed) = apart s := rfl
  unfold disagreementTest disagreementTimer
  rw [flag]
  cases apart s
  · exact capture_of_reports (reportEndedIf_reports _ _ _ _)
  · cases e : s.capture.disagree
    · rfl
    · show s.capture = { s.capture with disagree := true }
      rw [← e]

theorem lossReturnTest_capture (ch) (s : State) : (lossReturnTest ch s).capture = s.capture.set ch (testedRun s ch) := rfl

theorem speedNoneTest_capture (s : State) : (speedNoneTest s).capture = { s.capture with noneBegun := noneUsable s } := by
  unfold speedNoneTest; dsimp only; split
  · exact capture_of_reports (reportBegun_reports _ _ _ _)
  · exact capture_of_reports (reportEndedIf_reports _ _ _ _)

/-- The tables stand and each channel reads as before. -/
theorem SameReads.of_runs {s t : State} (tables : t.tables = s.tables)
    (h : ∀ ch, (t.capture.get ch).status = (s.capture.get ch).status
      ∧ (t.capture.get ch).measuring = (s.capture.get ch).measuring
      ∧ (t.capture.get ch).speed = (s.capture.get ch).speed) : SameReads s t :=
  ⟨fun ch => by unfold State.capCfg; rw [tables], fun ch => (h ch).1, fun ch => (h ch).2.1, fun ch => (h ch).2.2⟩

theorem disagreementTest_reads (s : State) : SameReads s (disagreementTest s) :=
  .of_runs (disagreementTest_captures s).tables fun ch => by
    rw [disagreementTest_capture]; cases ch <;> exact ⟨rfl, rfl, rfl⟩
theorem lossReturnTest_reads (ch) (s : State) : SameReads s (lossReturnTest ch s) :=
  .of_runs rfl fun d => by cases ch <;> cases d <;> exact ⟨rfl, rfl, rfl⟩

/-- The tests follow one another on states that read the same. -/
theorem captureUpdate_capture (s : State) : (captureUpdate s).capture = updated s := by
  have formed : SameReads s { s with capture.s := combined s } :=
    .of_runs rfl fun ch => by cases ch <;> exact ⟨rfl, rfl, rfl⟩
  have first := formed.trans (disagreementTest_reads _)
  have second := first.trans (lossReturnTest_reads .a _)
  have third := second.trans (lossReturnTest_reads .b _)
  unfold captureUpdate
  dsimp only
  rw [speedNoneTest_capture, third.noneUsable, lossReturnTest_capture, lossReturnTest_capture, disagreementTest_capture,
    formed.apart]
  unfold testedRun disagreementTimer
  dsimp only
  rw [first.lossHolds, first.returnHolds, second.lossHolds, second.returnHolds, lossReturnTest_capture,
    disagreementTest_capture, formed.apart]
  rfl

theorem captureUpdate_run (s : State) (ch : CapCh) : (captureUpdate s).capture.get ch = testedRun s ch := by
  rw [captureUpdate_capture, updated_get]

theorem captureUpdate_reads (s : State) : SameReads s (captureUpdate s) :=
  .of_runs (captureUpdate_captures s).tables fun ch => by rw [captureUpdate_run]; exact ⟨rfl, rfl, rfl⟩

/-! ## The invariant (O11) -/

/-- The invariant in its parts, in the model's own terms. -/
structure JudgedParts (s : State) : Prop where
  sum : s.capture.s = combined s
  flag : s.capture.disagree = apart s
  quiet : s.capture.disagree = false → s.capture.disagreeT = none ∧ s.capture.disagreeBegun = false
  none : s.capture.noneBegun = noneUsable s
  loss : ∀ ch, (s.capture.get ch).lossT ≠ .none → lossHolds s ch = true
  back : ∀ ch, (s.capture.get ch).returnT ≠ .none → returnHolds s ch = true

theorem usable_iff {s : State} {ch : CapCh} :
    usable s ch = true ↔ (s.tables.drive.cap ch).fitted = true ∧ (s.capture.get ch).status ≠ .lost := by
  simp [usable, State.capCfg]

theorem agree_iff {a b : Int} : agree a b = true ↔ (a - b).natAbs ≤ max a.natAbs b.natAbs / 10 + 50 := decide_eq_true_iff

theorem agree_comm (a b : Int) : agree a b = agree b a := by
  unfold agree; rw [← Int.natAbs_neg (a - b), Int.neg_sub, max_comm]

/-- Whether the speeds of a channel and the other agree does not depend on the channel. -/
theorem agree_other (s : State) (ch : CapCh) :
    agree (s.capture.get ch).speed (s.capture.get (otherCap ch)).speed = agree s.capture.a.speed s.capture.b.speed := by
  cases ch
  · rfl
  · exact agree_comm _ _

theorem combined_iff {s : State} :
    ((usable s .a = true → usable s .b = true → agree s.capture.a.speed s.capture.b.speed = true →
        s.capture.s = Int.tdiv (s.capture.a.speed + s.capture.b.speed) 2)
      ∧ (usable s .a = true → usable s .b = true → ¬agree s.capture.a.speed s.capture.b.speed = true →
        s.capture.s = if s.capture.b.speed.natAbs ≤ s.capture.a.speed.natAbs then s.capture.a.speed else s.capture.b.speed)
      ∧ (usable s .a = true → ¬usable s .b = true → s.capture.s = s.capture.a.speed)
      ∧ (¬usable s .a = true → usable s .b = true → s.capture.s = s.capture.b.speed)
      ∧ (¬usable s .a = true → ¬usable s .b = true → s.capture.s = 0)) ↔ s.capture.s = combined s := by
  unfold combined
  by_cases close : agree s.capture.a.speed s.capture.b.speed = true <;>
    cases usable s .a <;> cases usable s .b <;> simp [close]

theorem lossHolds_iff {s : State} {ch : CapCh} : lossHolds s ch = true ↔
    (s.tables.drive.cap ch).fitted = true ∧ (s.capture.get ch).status = .standstill ∧ usable s (otherCap ch) = true
    ∧ 500 < (s.capture.get (otherCap ch)).speed.natAbs := by
  simp [lossHolds, State.capCfg, and_assoc]

theorem returnHolds_iff {s : State} {ch : CapCh} : returnHolds s ch = true ↔
    (s.capture.get ch).status = .lost ∧ (s.capture.get ch).measuring = true ∧ usable s (otherCap ch) = true
    ∧ agree s.capture.a.speed s.capture.b.speed = true := by
  simp [returnHolds, agree_other, and_assoc]

theorem captureJudged_iff {s : State} : CaptureJudged s ↔ JudgedParts s := by
  unfold CaptureJudged
  simp only [← usable_iff, ← agree_iff, ← lossHolds_iff, ← returnHolds_iff]
  constructor
  · rintro ⟨both, larger, a, b, zero, flag, quiet, none, timers⟩
    exact ⟨combined_iff.1 ⟨both, larger, a, b, zero⟩, Bool.eq_iff_iff.2 (flag.trans (by simp [apart, and_assoc])), quiet,
      Bool.eq_iff_iff.2 (none.trans (by simp [noneUsable])), fun ch => (timers ch).1, fun ch => (timers ch).2⟩
  · rintro ⟨sum, flag, quiet, none, loss, back⟩
    obtain ⟨both, larger, a, b, zero⟩ := combined_iff.2 sum
    exact ⟨both, larger, a, b, zero, by simp [flag, apart, and_assoc], quiet, by simp [none, noneUsable],
      fun ch => ⟨loss ch, back ch⟩⟩

theorem testTimer_ne_none {holds : Bool} {ms : Nat} {t : Timer} (h : testTimer holds ms t ≠ none) : holds = true := by
  unfold testTimer at h
  cases holds
  · exact absurd rfl h
  · rfl

/-- A capture update leaves S and the tests in agreement with the channels, from any state (03 R47 to R51). -/
theorem captureUpdate_judged (s : State) : CaptureJudged (captureUpdate s) := by
  have same := captureUpdate_reads s
  refine captureJudged_iff.2 ⟨?_, ?_, ?_, ?_, fun ch h => ?_, fun ch h => ?_⟩
  · rw [same.combined, captureUpdate_capture]; rfl
  · rw [same.apart, captureUpdate_capture]; rfl
  · rw [captureUpdate_capture]
    intro (off : apart s = false)
    simp [updated, disagreementTimer, off]
  · rw [same.noneUsable, captureUpdate_capture]; rfl
  · rw [captureUpdate_run] at h
    rw [same.lossHolds]; exact testTimer_ne_none h
  · rw [captureUpdate_run] at h
    rw [same.returnHolds]; exact testTimer_ne_none h

end Sys2Proof.SpeedCapture
end

section
/-! SUPPORT. The fields that the capture invariant (O11) reads, and every operation outside speed capture (03), which
leaves them. -/

namespace Sys2Proof.SpeedCapture
open Sys2Proof Sys2Proof.Machine Sys2Proof.Signals

/-! ## What the capture invariant reads -/

/-- DRIVE_CONFIG and the capture record: all that the capture invariant reads. -/
def speeds (s : State) : DriveConfig × Capture := (s.tables.drive, s.capture)

theorem speeds_ite {c : Prop} [Decidable c] {s t u : State} (h : speeds t = speeds s) (k : speeds u = speeds s) :
    speeds (if c then t else u) = speeds s := by split <;> assumption
theorem speeds_foldl {α : Type} {f : State → α → State} (h : ∀ s a, speeds (f s a) = speeds s) (l : List α) (s : State) :
    speeds (l.foldl f s) = speeds s := foldl_field speeds f h l s
theorem speeds_of_ends {s t : State} (h : Ends s t) : speeds t = speeds s := by unfold Ends at h; rw [h]; rfl
theorem speeds_of_feeds {s t : State} (h : Feeds s t) : speeds t = speeds s := by unfold Feeds at h; rw [h]; rfl

/-! ### Reports, the level, acknowledgements -/

theorem reportBegun_speeds (k n sev) (s : State) : speeds (reportBegun k n sev s) = speeds s :=
  speeds_of_ends (reportBegun_reports k n sev s).ends
theorem reportEnded_speeds (k n) (s : State) : speeds (reportEnded k n s) = speeds s :=
  speeds_of_ends (reportEnded_reports k n s).ends
theorem reportEndedIf_speeds (b k n) (s : State) : speeds (reportEndedIf b k n s) = speeds s :=
  speeds_of_ends (reportEndedIf_reports b k n s).ends
theorem reportOnce_speeds (k n sev) (s : State) : speeds (reportOnce k n sev s) = speeds s :=
  speeds_of_ends (reportOnce_reports k n sev s).ends
theorem enterHeld_speeds (s : State) : speeds (enterHeld s) = speeds s := speeds_of_ends (enterHeld_publishes s).ends
theorem formLevel_speeds (s : State) : speeds (formLevel s) = speeds s := speeds_of_ends (formLevel_publishes s).ends
theorem closeBanks_speeds (c) (s : State) : speeds (closeBanks c s) = speeds s :=
  speeds_of_ends (closeBanks_publishes c s).ends
theorem finish_speeds (s : State) : speeds (finish s) = speeds s := speeds_of_ends (finish_ends s)
theorem acknowledge_speeds (s : State) : speeds (acknowledge s) = speeds s := speeds_of_feeds (acknowledge_acks s).feeds
theorem weighAck_speeds (s : State) : speeds (weighAck s) = speeds s := speeds_of_feeds (weighAck_acks s).feeds

/-! ### Signals (02) and the frame path (01) -/

theorem recompute_speeds (n) (s : State) : speeds (recompute n s) = speeds s := speeds_of_feeds (recompute_votes n s).feeds
theorem refreshSlot_speeds (n) (s : State) : speeds (refreshSlot n s) = speeds s :=
  speeds_of_feeds (refreshSlot_votes n s).feeds
theorem freshnessExpired_speeds (n) (s : State) : speeds (freshnessExpired n s) = speeds s :=
  (weighAck_speeds _).trans (reportBegun_speeds _ _ _ _)
theorem senderExpired_speeds (i) (s : State) : speeds (senderExpired i s) = speeds s := by
  unfold senderExpired; dsimp only; split
  · rfl
  · exact (weighAck_speeds _).trans (recompute_speeds _ _)
theorem removePlace_speeds (i) (s : State) : speeds (removePlace i s) = speeds s := by
  unfold removePlace; split
  · rfl
  · exact (recompute_speeds _ _).trans (reportEnded_speeds _ _ _)
theorem removeSenders_speeds (p r) (s : State) : speeds (removeSenders p r s) = speeds s :=
  speeds_ite rfl ((speeds_foldl (fun s n => recompute_speeds n s) _ _).trans (reportEnded_speeds _ _ _))
theorem presentSender_speeds (q f e n) (s : State) : speeds (presentSender q f e n s).2 = speeds s := by
  unfold presentSender; split
  · split
    · rfl
    · exact removePlace_speeds _ s
  · split
    · rfl
    · exact reportBegun_speeds _ _ _ _
theorem applyDirectPick_speeds (d) (s : State) (p) : speeds (applyDirectPick d s p) = speeds s := by
  unfold applyDirectPick; split
  · rfl
  · refine speeds_ite ?_ rfl
    split
    · rfl
    · exact speeds_of_feeds (tokenSlot_votes _ _ s).feeds
theorem applyDirect_speeds (e d) (s : State) : speeds (applyDirect e d s) = speeds s :=
  (weighAck_speeds _).trans <| (speeds_foldl (fun s _ => speeds_ite (refreshSlot_speeds _ s) rfl) _ _).trans <|
    speeds_foldl (applyDirectPick_speeds d) _ s
theorem applySenderToken_speeds (i d) (s : State) (p) : speeds (applySenderToken i d s p) = speeds s := by
  unfold applySenderToken; split <;> rfl
theorem applySender_speeds (i e d) (s : State) : speeds (applySender i e d s) = speeds s := by
  unfold applySender; split
  · rfl
  · split
    · rfl
    · exact (recompute_speeds _ _).trans (speeds_foldl (applySenderToken_speeds i d) _ _)
theorem forward_speeds (q f) (s : State) : speeds (forward q f s) = speeds s :=
  speeds_ite rfl (speeds_ite (reportBegun_speeds _ _ _ _) (reportEnded_speeds _ _ _))
theorem forwardAction_speeds (e q f) (s : State) : speeds (forwardAction e q f s) = speeds s := by
  unfold forwardAction; split
  · exact forward_speeds _ _ _
  · exact forward_speeds _ _ _
  · rfl
  · rfl
  · split <;> exact forward_speeds _ _ _
theorem carryOut_speeds (i q f) (s : State) : speeds (carryOut i q f s) = speeds s := by
  unfold carryOut; dsimp only; split
  · exact (forwardAction_speeds _ _ _ _).trans (applyDirect_speeds _ _ _)
  · split
    · exact forwardAction_speeds _ _ _ _
    · next v _ =>
      have presented := presentSender_speeds q f i v.slot s
      split
      · next x heq => rw [heq] at presented; exact presented
      · next j x heq =>
        rw [heq] at presented
        exact (forwardAction_speeds _ _ _ _).trans ((weighAck_speeds _).trans ((applySender_speeds _ _ _ _).trans presented))
theorem framePath_speeds (q f) (s : State) : speeds (framePath q f s) = speeds s := by
  unfold framePath; split
  · exact carryOut_speeds _ _ _ _
  · exact speeds_ite (forward_speeds _ _ _) rfl

/-! ### Ports, replies and sends (01, 09, 11) -/

theorem placeReply_speeds (s : State) : speeds (placeReply s) = speeds s := by unfold placeReply; split <;> rfl
theorem countReply_speeds (s : State) : speeds (countReply s) = speeds s := by unfold countReply; split <;> rfl
theorem holdReply_speeds (s : State) : speeds (holdReply s) = speeds s := by unfold holdReply; split <;> rfl
theorem offerReply_speeds (s : State) : speeds (offerReply s) = speeds s :=
  speeds_ite rfl (speeds_ite (countReply_speeds s) (speeds_ite (holdReply_speeds s) (placeReply_speeds s)))
theorem offerReplies_speeds (s : State) : speeds (offerReplies s) = speeds s :=
  speeds_ite (offerReply_speeds s) ((offerReply_speeds _).trans (offerReply_speeds s))
theorem makeReply_speeds (r) (s : State) : speeds (makeReply r s) = speeds s := speeds_ite rfl (offerReply_speeds _)
theorem deferredReply_speeds (st) (s : State) : speeds (deferredReply st s) = speeds s := by
  unfold deferredReply; split
  · rfl
  · exact makeReply_speeds _ _
theorem restartReplyLeft_speeds (q r) (s : State) : speeds (restartReplyLeft q r s) = speeds s := speeds_ite rfl rfl
theorem recordLeft_speeds (s : State) (r) : speeds (recordLeft s r) = speeds s := by unfold recordLeft; split <;> rfl
theorem continueSend_speeds (ch) (s : State) : speeds (continueSend ch s) = speeds s :=
  speeds_of_ends (continueSend_sends ch s).ends
theorem placeChannelFrame_speeds (ch n q) (s : State) : speeds (placeChannelFrame ch n q s) = speeds s :=
  speeds_of_ends (placeChannelFrame_sends ch n q s).ends
theorem handPlace_speeds (q) (s : State) : speeds (handPlace q s) = speeds s := by
  unfold handPlace; dsimp only; split
  · split
    · rfl
    · split
      · exact (continueSend_speeds _ _).trans (placeChannelFrame_speeds _ _ _ _)
      · exact offerReplies_speeds _
  · rfl
theorem releaseHolder_speeds (s : State) (h) : speeds (releaseHolder s h) = speeds s := by
  unfold releaseHolder; split
  · exact continueSend_speeds _ _
  · exact (countReply_speeds _).trans (countReply_speeds _)
theorem frameSentBody_speeds (q r) (s : State) : speeds (frameSentBody q r s) = speeds s :=
  (speeds_of_ends (completeAll_ends _)).trans <| (handPlace_speeds q _).trans <| (restartReplyLeft_speeds _ _ _).trans <|
    recordLeft_speeds _ _
theorem linkLostBody_speeds (q) (s : State) : speeds (linkLostBody q s) = speeds s :=
  (speeds_of_ends (completeAll_ends _)).trans <|
    (speeds_foldl (fun s h => (formLevel_speeds _).trans (releaseHolder_speeds s h)) _ _).trans <|
    (formLevel_speeds _).trans <| (reportBegun_speeds _ _ _ _).trans <|
    speeds_foldl (fun s r => (restartReplyLeft_speeds q r _).trans (recordLeft_speeds s r)) _ _
theorem giveTrigger_speeds (ch) (s : State) : speeds (giveTrigger ch s) = speeds s :=
  speeds_of_ends (giveTrigger_sends ch s).ends

/-! ### Profile selector and governor (04, 05) -/

theorem onGov_speeds (f) (s : State) : speeds (onGov f s) = speeds s := rfl
theorem selectorStage_speeds (s : State) : speeds (selectorStage s) = speeds s := by
  unfold selectorStage; dsimp only; split
  · exact speeds_ite rfl rfl
  · rfl
theorem enterNeutral_speeds (s : State) : speeds (enterNeutral s) = speeds s := reportEndedIf_speeds _ _ _ _
theorem beginStop_speeds (i) (s : State) : speeds (beginStop i s) = speeds s :=
  speeds_ite (reportBegun_speeds _ _ _ _) rfl
theorem weighState_speeds (i) (s : State) : speeds (weighState i s) = speeds s := by
  refine speeds_ite (enterHeld_speeds s) ?_
  split
  · exact speeds_ite (enterHeld_speeds s) (speeds_ite rfl (enterNeutral_speeds s))
  · exact speeds_ite (beginStop_speeds _ _) rfl
  · exact speeds_ite (beginStop_speeds _ _) rfl
  · rfl
  · exact speeds_ite (enterNeutral_speeds s) (enterHeld_speeds s)
theorem endStage_speeds (i) (s : State) : speeds (endStage i s) = speeds s := by
  refine speeds_ite ?_ rfl
  split
  · exact speeds_ite (enterHeld_speeds s) (enterNeutral_speeds s)
  · exact speeds_ite (enterNeutral_speeds s) rfl
  · exact speeds_ite (enterNeutral_speeds s) rfl
  · rfl
  · rfl
theorem engineWatch_speeds (i) (s : State) : speeds (engineWatch i s) = speeds s :=
  speeds_ite (reportEnded_speeds _ _ _) rfl
theorem overspeedBegins_speeds (s : State) : speeds (overspeedBegins s) = speeds s := reportBegun_speeds _ _ _ _
theorem overspeedWatch_speeds (i) (s : State) : speeds (overspeedWatch i s) = speeds s :=
  speeds_ite (speeds_ite (overspeedBegins_speeds _) rfl) (reportEndedIf_speeds _ _ _ _)
theorem governorStages_speeds (i) (s : State) : speeds (governorStages i s) = speeds s :=
  have weighed : speeds (onGov (cruiseStage i) (weighState i (lockStage i s))) = speeds s := weighState_speeds i _
  (overspeedWatch_speeds _ _).trans <| (engineWatch_speeds _ _).trans <| (endStage_speeds _ _).trans <|
    speeds_ite weighed weighed
theorem governorBody_speeds (s : State) : speeds (governorBody s) = speeds s :=
  (governorStages_speeds _ _).trans <| (onGov_speeds _ _).trans <| (selectorStage_speeds _).trans (onGov_speeds _ s)

/-! ### Arms (06) -/

theorem leaveQueue_speeds (a) (s : State) : speeds (leaveQueue a s) = speeds s := reportEnded_speeds _ _ _
theorem shutdownFreezeArm_speeds (l) (s : State) (a) : speeds (shutdownFreezeArm l s a) = speeds s :=
  speeds_ite ((reportEnded_speeds _ _ _).trans (reportEnded_speeds _ _ _)) rfl
theorem startShutdown_speeds (s : State) : speeds (startShutdown s) = speeds s :=
  (closeBanks_speeds _ _).trans <|
    (speeds_foldl (shutdownFreezeArm_speeds _) _ _).trans <| enterHeld_speeds _
theorem clearObstruction_speeds (a) (s : State) : speeds (clearObstruction a s) = speeds s :=
  speeds_ite (reportEnded_speeds _ _ _) rfl
theorem tryJoin_speeds (a up o) (s : State) : speeds (tryJoin a up o s) = speeds s := speeds_ite rfl rfl
theorem turnUp_speeds (a) (s : State) : speeds (turnUp a s) = speeds s := by
  unfold turnUp; split
  · exact leaveQueue_speeds a s
  all_goals exact speeds_ite (leaveQueue_speeds a s) rfl
theorem turnDown_speeds (a) (s : State) : speeds (turnDown a s) = speeds s := by
  unfold turnDown; split
  · exact leaveQueue_speeds a s
  all_goals exact speeds_ite (leaveQueue_speeds a s) rfl
theorem transition_speeds (a) (s : State) : speeds (transition a s) = speeds s := by
  unfold transition; dsimp only; split
  · exact speeds_ite (speeds_ite rfl (tryJoin_speeds _ _ _ _)) rfl
  · exact speeds_ite (tryJoin_speeds _ _ _ _) rfl
  · exact speeds_ite rfl (turnUp_speeds _ _)
  · exact speeds_ite (turnDown_speeds _ _) rfl
  · exact speeds_ite rfl rfl
  · exact speeds_ite rfl rfl
  · exact speeds_ite rfl (speeds_ite rfl rfl)
  · exact speeds_ite rfl (speeds_ite rfl rfl)
  · exact speeds_of_ends (rejoinArm_publishes _ _).ends
  · rfl
theorem armStage_speeds (s : State) (a) : speeds (armStage s a) = speeds s :=
  speeds_ite ((transition_speeds _ _).trans (clearObstruction_speeds a _)) rfl
theorem weighGrant_speeds (s : State) : speeds (weighGrant s) = speeds s := by
  unfold weighGrant; split
  · rfl
  · exact speeds_ite (leaveQueue_speeds _ s) rfl
theorem banksFollowArms_speeds (s : State) : speeds (banksFollowArms s) = speeds s := closeBanks_speeds _ _
theorem armPeriodBody_speeds (s : State) : speeds (armPeriodBody s) = speeds s :=
  (banksFollowArms_speeds _).trans <| (speeds_foldl (f := commandStage) (fun _ _ => rfl) _ _).trans <|
    (weighGrant_speeds _).trans <| speeds_foldl armStage_speeds _ _
theorem motionExpired_speeds (a) (s : State) : speeds (motionExpired a s) = speeds s :=
  (weighGrant_speeds _).trans <| (banksFollowArms_speeds _).trans <| reportOnce_speeds _ _ _ _
theorem unfitArm_speeds (a) (s : State) : speeds (unfitArm a s) = speeds s :=
  (reportEnded_speeds _ _ _).trans <| (reportEnded_speeds _ _ _).trans <| leaveQueue_speeds a s
theorem actOnFitted_speeds (o) (s : State) : speeds (actOnFitted o s) = speeds s := by
  refine (banksFollowArms_speeds _).trans (speeds_foldl (fun s a => ?_) _ _)
  split
  · exact unfitArm_speeds _ _
  all_goals rfl

/-! ### Doser, cut-off, power (08, 10, 12) -/

theorem lowCheck_speeds (s : State) : speeds (lowCheck s) = speeds s :=
  speeds_ite (speeds_ite (speeds_ite (reportBegun_speeds _ _ _ _) rfl) (speeds_ite (reportEndedIf_speeds _ _ _ _) rfl)) rfl
theorem dryCheck_speeds (s : State) : speeds (dryCheck s) = speeds s :=
  speeds_ite (reportBegun_speeds _ _ _ _) (reportEndedIf_speeds _ _ _ _)
theorem sprayBody_speeds (s : State) : speeds (sprayBody s) = speeds s := by
  have tank (u : State) : speeds (dryCheck (lowCheck u)) = speeds u := (dryCheck_speeds _).trans (lowCheck_speeds u)
  refine Eq.trans ?_ (tank (onSpray (fun p => { p with timer := msTimer Config.sprayPeriodMs }) s))
  unfold sprayBody
  dsimp only
  generalize dryCheck _ = u
  rfl
theorem weighRelease_speeds (s : State) : speeds (weighRelease s) = speeds s := speeds_ite (reportEnded_speeds _ _ _) rfl
theorem cutoffActiveBody_speeds (s : State) : speeds (cutoffActiveBody s) = speeds s :=
  speeds_ite rfl (reportBegun_speeds _ _ _ _)
theorem cutoffInactiveBody_speeds (s : State) : speeds (cutoffInactiveBody s) = speeds s :=
  speeds_ite (weighRelease_speeds _) rfl
theorem failedStep_speeds (p) (s : State) : speeds (failedStep p s) = speeds s := by
  unfold failedStep; split
  · rfl
  · simp only [failedPage, speeds]
theorem losePower_speeds (s : State) : speeds (losePower s) = speeds s := by
  unfold losePower; dsimp only; split
  · exact failedStep_speeds _ _
  · rfl
  · rfl

/-! ### The table store and the service unit (11, 12) -/

theorem startStore_speeds (s : State) : speeds (startStore s) = speeds s := speeds_ite (deferredReply_speeds _ _) rfl
theorem storeDone_speeds (r) (s : State) : speeds (storeDone r s) = speeds s :=
  (deferredReply_speeds _ _).trans (reportEnded_speeds _ _ _)
theorem storeStep_speeds (b r) (s : State) : speeds (storeStep b r s) = speeds s :=
  speeds_ite (speeds_ite (storeDone_speeds _ _) rfl) ((deferredReply_speeds _ _).trans (failedStep_speeds _ _))
theorem answer_speeds (c t st d) (s : State) : speeds (answer c t st d s) = speeds s := makeReply_speeds _ _
theorem openConfig_speeds (s : State) : speeds (openConfig s).2 = speeds s := by
  unfold openConfig
  split
  · rfl
  · split
    · rfl
    · split
      · rfl
      · exact enterHeld_speeds _
theorem readItem_speeds (c i k) (s : State) : speeds (readItem c i k s).2.2 = speeds s := by
  unfold readItem readKind
  split
  · split
    · split
      · rfl
      · split
        · split <;> rfl
        · rfl
    · rfl
  · rfl
theorem stageItem_speeds (o d) (s : State) : speeds (stageItem o d s).2 = speeds s := by unfold stageItem; split <;> rfl
theorem channelControl_speeds (c a) (s : State) : speeds (channelControl c a s).2 = speeds s := by
  unfold channelControl
  split
  case h_3 => exact giveTrigger_speeds _ _
  all_goals rfl
theorem restartRequest_speeds (c t) (s : State) : speeds (restartRequest c t s) = speeds s :=
  speeds_ite (makeReply_speeds _ _) (answer_speeds _ _ _ _ _)
theorem dropSenders_speeds (slot) (s : State) : speeds (dropSenders slot s).2 = speeds s := by
  have dropped (p r) : speeds (weighAck (removeSenders p r s)) = speeds s :=
    (weighAck_speeds _).trans (removeSenders_speeds p r s)
  unfold dropSenders; split
  · exact dropped _ _
  · split
    · exact dropped _ _
    · rfl

end Sys2Proof.SpeedCapture
end

section
/-! SUPPORT. The capture invariant under time, capture's own events, restarts, RECALL and COMMIT, and under every step:
O11. -/

namespace Sys2Proof.SpeedCapture
open Sys2Proof Sys2Proof.Machine Sys2Proof.Signals

/-! ## What keeps the invariant -/

/-- The capture invariant carries over from a state to a later one. -/
def KeepsJudged (s t : State) : Prop := CaptureJudged s → CaptureJudged t

theorem KeepsJudged.refl (s : State) : KeepsJudged s s := id
theorem KeepsJudged.trans {s t u : State} (h : KeepsJudged s t) (k : KeepsJudged t u) : KeepsJudged s u := k ∘ h
theorem KeepsJudged.ite {s t u : State} {c : Prop} [Decidable c] (h : KeepsJudged s t) (k : KeepsJudged s u) :
    KeepsJudged s (if c then t else u) := by split <;> assumption
theorem KeepsJudged.of_judged {s t : State} (h : CaptureJudged t) : KeepsJudged s t := fun _ => h

/-- The invariant reads nothing else. -/
theorem KeepsJudged.of_speeds {s t : State} (h : speeds t = speeds s) : KeepsJudged s t := by
  have drive : t.tables.drive = s.tables.drive := congrArg Prod.fst h
  have capture : t.capture = s.capture := congrArg Prod.snd h
  unfold KeepsJudged CaptureJudged
  rw [drive, capture]
  exact id

/-- Nothing changes but times and what only the edges read, and no timer starts. -/
theorem KeepsJudged.of_runs {s t : State} (same : SameReads s t)
    (told : t.capture.s = s.capture.s ∧ t.capture.disagree = s.capture.disagree
      ∧ t.capture.disagreeBegun = s.capture.disagreeBegun ∧ t.capture.noneBegun = s.capture.noneBegun)
    (disagreeT : s.capture.disagreeT = none → t.capture.disagreeT = none)
    (lossT : ∀ ch, (s.capture.get ch).lossT = none → (t.capture.get ch).lossT = none)
    (returnT : ∀ ch, (s.capture.get ch).returnT = none → (t.capture.get ch).returnT = none) : KeepsJudged s t := by
  intro ok
  have ok := captureJudged_iff.1 ok
  obtain ⟨sum, disagree, begun, none⟩ := told
  refine captureJudged_iff.2 ⟨?_, ?_, fun off => ?_, ?_, fun ch h => ?_, fun ch h => ?_⟩
  · rw [sum, same.combined, ok.sum]
  · rw [disagree, same.apart, ok.flag]
  · obtain ⟨stopped, notBegun⟩ := ok.quiet (disagree ▸ off)
    exact ⟨disagreeT stopped, begun.trans notBegun⟩
  · rw [none, same.noneUsable, ok.none]
  · rw [same.lossHolds]; exact ok.loss ch (mt (lossT ch) h)
  · rw [same.returnHolds]; exact ok.back ch (mt (returnT ch) h)

/-- What an edge alone changes of a channel. -/
theorem onCap_judged (ch : CapCh) (f : CapRun → CapRun) (s : State)
    (h : ∀ r, (f r).status = r.status ∧ (f r).measuring = r.measuring ∧ (f r).speed = r.speed ∧ (f r).lossT = r.lossT
      ∧ (f r).returnT = r.returnT) : KeepsJudged s (onCap ch f s) := by
  have reads (d : CapCh) : let r := s.capture.get d; let q := (onCap ch f s).capture.get d
      q.status = r.status ∧ q.measuring = r.measuring ∧ q.speed = r.speed ∧ q.lossT = r.lossT ∧ q.returnT = r.returnT := by
    by_cases e : d = ch
    · subst e; simpa using h (s.capture.get d)
    · simp [Capture.get_set_other _ _ e]
  refine .of_runs (.of_runs rfl fun d => ?_) (by cases ch <;> exact ⟨rfl, rfl, rfl, rfl⟩) (by cases ch <;> exact id)
    (fun d => ?_) (fun d => ?_)
  all_goals obtain ⟨status, measuring, speed, lossT, returnT⟩ := reads d
  · exact ⟨status, measuring, speed⟩
  · rw [lossT]; exact id
  · rw [returnT]; exact id

/-! ## Time -/

theorem passTime_reads (n : Nat) (s : State) : SameReads s (passTime n s) :=
  .of_runs rfl fun ch => by cases ch <;> exact ⟨rfl, rfl, rfl⟩

theorem pass_none {n : Nat} {t : Timer} (h : t = none) : t.pass n = none := by rw [h]; rfl

theorem passTime_judged (n : Nat) (s : State) : KeepsJudged s (passTime n s) :=
  .of_runs (passTime_reads n s) ⟨rfl, rfl, rfl, rfl⟩ pass_none (fun ch => by cases ch <;> exact pass_none)
    (fun ch => by cases ch <;> exact pass_none)

theorem advance_judged (n : Nat) (s : State) : KeepsJudged s (advance n s) := by
  cases n with
  | zero => exact .refl s
  | succ n => exact passTime_judged _ s

/-- SLEEP stops every timer and leaves what the tests read. -/
theorem sleepBody_judged (s : State) : KeepsJudged s (sleepBody s) :=
  .of_runs (.of_runs rfl fun ch => by cases ch <;> exact ⟨rfl, rfl, rfl⟩) ⟨rfl, rfl, rfl, rfl⟩ (fun _ => rfl)
    (fun ch _ => by cases ch <;> rfl) (fun ch _ => by cases ch <;> rfl)

/-! ## Capture's own events -/

/-- An edge is counted or remembered, or ends a period, which is a capture update (03 R42 to R44). -/
theorem edge_judged (ch high clk) (s : State) : KeepsJudged s (edge ch high clk s) := by
  have taken : KeepsJudged s (onCap ch (fun r => { r with forward := high, standstillT := msTimer Config.standstillMs }) s) :=
    onCap_judged ch _ s fun _ => ⟨rfl, rfl, rfl, rfl, rfl⟩
  unfold edge
  dsimp only
  split
  · exact taken.trans (onCap_judged ch _ _ fun _ => ⟨rfl, rfl, rfl, rfl, rfl⟩)
  · split
    · exact taken.trans (onCap_judged ch _ _ fun _ => ⟨rfl, rfl, rfl, rfl, rfl⟩)
    · exact .of_judged (captureUpdate_judged _)

/-- The disagreement timer runs only while the speeds disagree, so the condition it begins is one that stands (03 R48). -/
theorem disagreementExpired_judged {s : State} (running : s.capture.disagreeT ≠ none) :
    KeepsJudged s (disagreementExpired s) := by
  intro ok
  have ok := captureJudged_iff.1 ok
  have on : s.capture.disagree ≠ false := fun off => running (ok.quiet off).1
  refine KeepsJudged.of_speeds (reportBegun_speeds _ _ _ _) (captureJudged_iff.2 ?_)
  have same : SameReads s { s with capture := { s.capture with disagreeT := none, disagreeBegun := true } } :=
    .of_runs rfl fun ch => by cases ch <;> exact ⟨rfl, rfl, rfl⟩
  refine ⟨?_, ?_, fun off => absurd off on, ?_, fun ch h => ?_, fun ch h => ?_⟩
  · exact ok.sum.trans same.combined.symm
  · exact ok.flag.trans same.apart.symm
  · exact ok.none.trans same.noneUsable.symm
  · rw [same.lossHolds]; exact ok.loss ch (by cases ch <;> exact h)
  · rw [same.returnHolds]; exact ok.back ch (by cases ch <;> exact h)

theorem resetCapture_judged (s : State) : CaptureJudged (resetCapture s) := captureUpdate_judged _

/-! ## Restarts and RECALL -/

theorem judgeIgnition_speeds (s : State) : speeds (judgeIgnition s) = speeds s := speeds_ite rfl (startShutdown_speeds s)
theorem unlock_speeds (s : State) : speeds { s with gov.lock := false, ev.armChange := false } = speeds s := rfl
theorem endUnobserved_speeds (s : State) : speeds (endUnobserved s) = speeds s :=
  speeds_foldl (fun _ _ => reportEnded_speeds _ _ _) _ s
theorem judgeStore_speeds (s : State) : speeds (judgeStore s) = speeds s := speeds_ite (reportBegun_speeds _ _ _ _) rfl
theorem judgeCutoff_speeds (s : State) : speeds (judgeCutoff s) = speeds s := speeds_ite (reportBegun_speeds _ _ _ _) rfl

/-- A restart judges S on the channels it has set, whatever stood before (03 R41). -/
theorem restartBlocks_judged (s : State) : CaptureJudged (restartBlocks s) := by
  unfold restartBlocks
  generalize takeAckReading (setBlocks s) = u
  refine KeepsJudged.of_speeds ?_ (captureUpdate_judged u)
  exact (judgeIgnition_speeds _).trans <| (unlock_speeds _).trans <| (formLevel_speeds _).trans <|
    (endUnobserved_speeds _).trans <| (judgeStore_speeds _).trans (judgeCutoff_speeds _)

theorem coldStart_judged (s : State) : CaptureJudged (coldStart s) := restartBlocks_judged _
theorem warmRestart_judged (c) (s : State) : CaptureJudged (warmRestart c s) := restartBlocks_judged _

/-- A RECALL resets capture on the tables it loads (03 R40). -/
theorem replaceTables_judged (t) (s : State) : CaptureJudged (replaceTables t s) :=
  KeepsJudged.of_speeds (weighAck_speeds _) (resetCapture_judged _)

theorem recallDone_judged (sum) (s : State) : KeepsJudged s (recallDone sum s) := by
  unfold recallDone; dsimp only; split
  · exact .of_judged (KeepsJudged.of_speeds (deferredReply_speeds _ _) (replaceTables_judged _ _))
  · exact .of_speeds (deferredReply_speeds _ _)
theorem startRecall_judged (s : State) : KeepsJudged s (startRecall s) := by
  unfold startRecall; split
  · exact .of_speeds (deferredReply_speeds _ _)
  · exact .ite (recallDone_judged _ s) (.of_speeds rfl)
theorem readDone_judged (r) (s : State) : KeepsJudged s (readDone r s) := .ite (.of_speeds rfl) (recallDone_judged _ s)

/-! ## COMMIT and the other requests -/

/-- A COMMIT keeps the invariant if accepting does. -/
theorem commitWith_judged {α : Type} (n index len : Nat) (decode : List Byte → Option α)
    (accept : Fin n → α → State → Judged) (s : State) (h : ∀ i x, KeepsJudged s (accept i x s).2) :
    KeepsJudged s (commitWith n index len decode accept s).2 := by
  rcases commitWith_cases n index len decode accept s with e | ⟨i, x, -, e⟩
  · rw [e]; exact .refl s
  · rw [e]; exact h i x

theorem acceptMatch_speeds (i e) (s : State) : speeds (acceptMatch i e s).2 = speeds s := by
  unfold acceptMatch; split
  · exact (weighAck_speeds _).trans (removeSenders_speeds _ _ _)
  · rfl
theorem acceptSlot_speeds (i c) (s : State) : speeds (acceptSlot i c s).2 = speeds s := by
  unfold acceptSlot; split
  · exact (weighAck_speeds _).trans <| (reportEnded_speeds _ _ _).trans <| (reportEnded_speeds _ _ _).trans <|
      removeSenders_speeds _ _ _
  · rfl

/-- Only the COMMIT of DRIVE_CONFIG touches what the invariant reads, and it resets capture (03 R40). -/
theorem commitItem_judged (code index) (s : State) : KeepsJudged s (commitItem code index s).2 := by
  unfold commitItem
  split
  case h_1 => exact commitWith_judged _ _ _ _ _ s fun i e => .of_speeds (acceptMatch_speeds i e s)
  case h_2 => exact commitWith_judged _ _ _ _ _ s fun i c => .of_speeds (acceptSlot_speeds i c s)
  case h_3 => exact commitWith_judged _ _ _ _ _ s fun _ _ => .of_speeds (weighAck_speeds _)
  case h_6 => exact commitWith_judged _ _ _ _ _ s fun _ _ => .of_speeds (actOnFitted_speeds _ _)
  case h_7 | h_8 =>
    refine commitWith_judged _ _ _ _ _ s fun i x => ?_
    dsimp only
    split <;> exact .of_speeds rfl
  case h_10 => exact commitWith_judged _ _ _ _ _ s fun _ _ => .of_judged (resetCapture_judged _)
  case h_4 | h_5 | h_9 | h_11 | h_12 => exact commitWith_judged _ _ _ _ _ s fun _ _ => .of_speeds rfl
  all_goals exact .refl s

theorem answerJudged_judged {j : Judged} {s : State} (c t) (h : KeepsJudged s j.2) :
    KeepsJudged s (answerJudged c t j) := h.trans (.of_speeds (answer_speeds _ _ _ _ _))

theorem carryOutRequest_judged (c t d) (s : State) : KeepsJudged s (carryOutRequest c t d s) := by
  unfold carryOutRequest
  split
  · exact answerJudged_judged _ _ (.of_speeds (openConfig_speeds s))
  · exact .of_speeds (answer_speeds _ _ _ _ _)
  · exact .of_speeds ((answer_speeds _ _ _ _ _).trans (readItem_speeds _ _ _ s))
  · exact answerJudged_judged _ _ (.of_speeds (stageItem_speeds _ _ s))
  · exact answerJudged_judged _ _ (commitItem_judged _ _ s)
  · exact .of_speeds (startStore_speeds _)
  · exact KeepsJudged.trans (t := { s with service.deferred := some (c, t) }) (.of_speeds rfl) (startRecall_judged _)
  · split <;> exact .of_speeds (answer_speeds _ _ _ _ _)
  · exact .of_speeds ((answer_speeds _ _ _ _ _).trans (acknowledge_speeds s))
  · exact answerJudged_judged _ _ (.of_speeds (channelControl_speeds _ _ s))
  · exact .of_speeds (restartRequest_speeds _ _ s)
  · exact .of_speeds (answer_speeds _ _ _ _ _)
  · exact answerJudged_judged _ _ (.of_speeds (dropSenders_speeds _ s))
  · exact .refl s

theorem restartInactivity_speeds (s : State) : speeds (restartInactivity s) = speeds s := speeds_ite rfl rfl

theorem serviceRequest_judged (d) (s : State) : KeepsJudged s (serviceRequest d s) := by
  unfold serviceRequest
  split
  · exact .refl s
  · refine (KeepsJudged.of_speeds (restartInactivity_speeds s)).trans (.ite (.refl _) ?_)
    split
    · exact .of_speeds (answer_speeds _ _ _ _ _)
    · exact carryOutRequest_judged _ _ _ _

/-! ## Every step -/

theorem event_judged {body : State → State} (s : State) (h : KeepsJudged s.opened (body s.opened)) :
    KeepsJudged s (event body s) :=
  KeepsJudged.trans (t := s.opened) (.of_speeds rfl) (h.trans (.of_speeds (finish_speeds _)))
theorem event_apart {body : State → State} (s : State) (h : ∀ s, speeds (body s) = speeds s) :
    KeepsJudged s (event body s) := event_judged s (.of_speeds (h _))
theorem restartIfDue_judged (s : State) : KeepsJudged s (restartIfDue s) :=
  .ite (event_judged s (.of_judged (warmRestart_judged _ _))) (.refl s)
theorem sleepIfDue_judged (s : State) : KeepsJudged s (sleepIfDue s) := by
  have slept := event_judged s (sleepBody_judged s.opened)
  exact .ite (.ite (slept.trans (event_judged _ (.of_judged (warmRestart_judged _ _)))) slept) (.refl s)

/-- An answer whose next state keeps the invariant. -/
def AnswerKeepsJudged (s : State) (a : Answer) : Prop := ∀ t, a = .next t → KeepsJudged s t

theorem AnswerKeepsJudged.next {s t : State} (h : KeepsJudged s t) : AnswerKeepsJudged s (.next t) := by
  rintro _ ⟨⟩; exact h
theorem AnswerKeepsJudged.ite {s : State} {a b : Answer} {c : Prop} [Decidable c] (h : AnswerKeepsJudged s a)
    (k : AnswerKeepsJudged s b) : AnswerKeepsJudged s (if c then a else b) := by split <;> assumption
theorem AnswerKeepsJudged.stay (s : State) : AnswerKeepsJudged s (.next s) := .next (.refl s)

theorem happens_judged {body : State → State} (h : ∀ s, KeepsJudged s (body s)) (c) (s : State) :
    AnswerKeepsJudged s (happens c body s) := .ite (.next (event_judged s (h _))) (.stay s)
theorem happens_apart {body : State → State} (h : ∀ s, speeds (body s) = speeds s) (c) (s : State) :
    AnswerKeepsJudged s (happens c body s) := happens_judged (fun s => .of_speeds (h s)) c s
/-- An expiry keeps the invariant if its body does on the state in which it is taken. -/
theorem expires_judged {body : State → State} (t) (s : State)
    (h : ∀ r, t = some r → KeepsJudged (s.openedAt r) (body (s.openedAt r))) : AnswerKeepsJudged s (expires t body s) := by
  refine .ite ?_ (.stay s)
  split
  · next r => exact .next ((advance_judged r s).trans (event_judged _ (h r rfl)))
  · exact .stay s
theorem expires_apart {body : State → State} (h : ∀ s, speeds (body s) = speeds s) (t) (s : State) :
    AnswerKeepsJudged s (expires t body s) := expires_judged t s fun _ _ => .of_speeds (h _)
/-- A capture timer whose expiry ends in a capture update. -/
theorem expires_update {body : State → State} (h : ∀ s, CaptureJudged (body s)) (t) (s : State) :
    AnswerKeepsJudged s (expires t body s) := expires_judged t s fun _ _ => .of_judged (h _)
theorem operationEvent_judged {body : State → State} (h : ∀ s, KeepsJudged s (body s)) (t) (s : State) :
    AnswerKeepsJudged s (operationEvent t body s) := by
  refine .ite ?_ (.stay s)
  split
  · exact .next ((advance_judged _ s).trans ((event_judged _ (h _)).trans (sleepIfDue_judged _)))
  · exact .stay s

theorem execFrameReceived_judged (q f) (s : State) : AnswerKeepsJudged s (execFrameReceived q f s) :=
  .ite (happens_judged (fun _ => .ite (serviceRequest_judged _ _) (.of_speeds (framePath_speeds _ _ _))) _ s)
    fun _ e => nomatch e
theorem request_judged (d) (s : State) : AnswerKeepsJudged s (request d s) :=
  happens_judged (serviceRequest_judged d) _ s
theorem execFrameSent_judged (q) (s : State) : AnswerKeepsJudged s (execFrameSent q s) := by
  refine .ite ?_ (.stay s)
  split
  · exact .next ((event_apart s (frameSentBody_speeds q _)).trans (restartIfDue_judged _))
  · exact .stay s
theorem execLinkLost_judged (q) (s : State) : AnswerKeepsJudged s (execLinkLost q s) :=
  .ite (.next ((event_apart s (linkLostBody_speeds q)).trans (restartIfDue_judged _))) (.stay s)
theorem execPulseEdge_judged (ch high clk) (s : State) : AnswerKeepsJudged s (execPulseEdge ch high clk s) := by
  have late (u : State) : KeepsJudged u (event (standstillExpired ch) u) :=
    event_judged u (.of_judged (captureUpdate_judged _))
  have taken (u : State) : KeepsJudged u (event (edge ch high clk) u) := event_judged u (edge_judged ch high clk _)
  exact .ite (.ite (.next ((advance_judged _ s).trans (.trans (.ite (late _) (.refl _)) (taken _))))
    (.next (advance_judged _ s))) (.stay s)
theorem execDisagreementTimerExpiry_judged (s : State) : AnswerKeepsJudged s (execDisagreementTimerExpiry s) := by
  refine expires_judged _ s fun r running => disagreementExpired_judged ?_
  intro (stopped : (advance r s).capture.disagreeT = none)
  rcases advance_eq r s with e | e <;> rw [e] at stopped
  · rw [running] at stopped; cases stopped
  · have passed : s.capture.disagreeT.pass r = none := stopped
    rw [running] at passed; cases passed
theorem execShutdownTimerExpiry_judged (s : State) : AnswerKeepsJudged s (execShutdownTimerExpiry s) := by
  refine .ite ?_ (.stay s)
  split
  · exact .next ((advance_judged _ s).trans ((event_apart (body := shutdownExpired) _ fun _ => rfl).trans
      (sleepIfDue_judged _)))
  · exact .stay s
theorem execColdStart_judged (s : State) : AnswerKeepsJudged s (execColdStart s) :=
  .next (.of_judged (KeepsJudged.of_speeds (finish_speeds _) (coldStart_judged _)))
theorem execWake_judged (s : State) : AnswerKeepsJudged s (execWake s) :=
  .ite (.next (.of_judged (KeepsJudged.of_speeds (finish_speeds _) (warmRestart_judged _ _)))) (.next (.of_speeds rfl))
theorem execIgnitionShutdown_judged (s : State) : AnswerKeepsJudged s (execIgnitionShutdown s) :=
  .ite (.ite (.next (KeepsJudged.trans (t := { s with ignLine := false }) (.of_speeds rfl)
    (event_apart _ startShutdown_speeds))) (.next (.of_speeds rfl))) (.stay s)
theorem execStorePageStep_judged (b) (s : State) : AnswerKeepsJudged s (execStorePageStep b s) := by
  unfold execStorePageStep; split
  · exact operationEvent_judged (fun u => .of_speeds (storeStep_speeds b _ u)) _ s
  · exact .stay s
theorem execStoreCompletion_judged (s : State) : AnswerKeepsJudged s (execStoreCompletion s) := by
  unfold execStoreCompletion; split
  · exact .ite (operationEvent_judged (fun u => .of_speeds (storeDone_speeds _ u)) _ s) (.stay s)
  · exact .stay s
theorem execRecallPageRead_judged (s : State) : AnswerKeepsJudged s (execRecallPageRead s) := by
  unfold execRecallPageRead; split
  · exact operationEvent_judged (readDone_judged _) _ s
  · exact .stay s
theorem execRecallCompletion_judged (s : State) : AnswerKeepsJudged s (execRecallCompletion s) := by
  unfold execRecallCompletion; split
  · exact .ite (.stay s) (operationEvent_judged (readDone_judged _) _ s)
  · exact .stay s
theorem execWaitingHolderPlaced_judged (q) (s : State) : AnswerKeepsJudged s (execWaitingHolderPlaced q s) :=
  happens_apart (body := fun s => completeAll ((handPlace q s).onPort q PortUnit.offerLink))
    (fun u => (speeds_of_ends (completeAll_ends _)).trans (handPlace_speeds q u)) _ s

/-- Every command keeps the invariant. -/
theorem exec_judged (i : Instr) (s : State) : AnswerKeepsJudged s (exec i s) := by
  cases i
  case frameReceived q f => exact execFrameReceived_judged q f s
  case frameSent q => exact execFrameSent_judged q s
  case waitingHolderPlaced q => exact execWaitingHolderPlaced_judged q s
  case linkLost q => exact execLinkLost_judged q s
  case linkRestored q => exact happens_apart (body := linkRestoredBody q) (fun _ => reportEnded_speeds _ _ _) _ s
  case pulseEdge ch d k => exact execPulseEdge_judged ch d k s
  case windowTimerExpiry ch => exact expires_update (body := windowExpired ch) (fun _ => captureUpdate_judged _) _ s
  case standstillTimerExpiry ch =>
    exact expires_update (body := standstillExpired ch) (fun _ => captureUpdate_judged _) _ s
  case disagreementTimerExpiry => exact execDisagreementTimerExpiry_judged s
  case lossTimerExpiry ch => exact expires_update (body := lossExpired ch) (fun _ => captureUpdate_judged _) _ s
  case returnTimerExpiry ch => exact expires_update (body := returnExpired ch) (fun _ => captureUpdate_judged _) _ s
  case freshnessTimerExpiry n => exact expires_apart (freshnessExpired_speeds n) _ s
  case senderTimerExpiry p => exact expires_apart (senderExpired_speeds p) _ s
  case silentTimeEnd p => exact expires_apart (fun u => (weighAck_speeds _).trans (removePlace_speeds p u)) _ s
  case governorPeriod => exact expires_apart governorBody_speeds _ s
  case overspeedTimeLimit => exact happens_apart overspeedBegins_speeds _ s
  case armPeriod => exact expires_apart armPeriodBody_speeds _ s
  case motionTimerExpiry a => exact expires_apart (motionExpired_speeds a) _ s
  case floatTimerExpiry a => exact expires_apart (body := floatExpired a) (fun _ => reportBegun_speeds _ _ _ _) _ s
  case waitTimerExpiry a => exact expires_apart (body := waitExpired a) (fun _ => reportBegun_speeds _ _ _ _) _ s
  case allocatorPeriod => exact expires_apart (body := allocatorBody) (fun _ => rfl) _ s
  case sprayPeriod => exact expires_apart sprayBody_speeds _ s
  case lingerEnd => exact happens_apart (body := onSpray endLinger) (fun _ => rfl) _ s
  case intervalTimerExpiry ch => exact expires_apart (body := intervalExpired ch) (fun _ => giveTrigger_speeds _ _) _ s
  case sendCompletion ch => exact happens_apart (fun u => speeds_of_ends (completeIfDone_sends ch u).ends) _ s
  case cutoffActive =>
    exact .ite (.stay s) (.ite (.next (event_apart s cutoffActiveBody_speeds)) (.next (.of_speeds rfl)))
  case cutoffInactive =>
    exact .ite (.stay s) (.ite (.next (event_apart s cutoffInactiveBody_speeds)) (.next (.of_speeds rfl)))
  case releaseTimerExpiry => exact expires_apart weighRelease_speeds _ s
  case detectionTimeExpiry k n => exact expires_apart (reportEnded_speeds k n) _ s
  case ignitionShutdown => exact execIgnitionShutdown_judged s
  case shutdownTimerExpiry => exact execShutdownTimerExpiry_judged s
  case sleepEntry => exact .next (sleepIfDue_judged s)
  case wake => exact execWake_judged s
  case coldStart => exact execColdStart_judged s
  case serviceRestart => exact .next (restartIfDue_judged s)
  case inactivityTimerExpiry => exact expires_apart (body := closeSession) (fun _ => rfl) _ s
  case storePageStep b => exact execStorePageStep_judged b s
  case storeCompletion => exact execStoreCompletion_judged s
  case recallPageRead => exact execRecallPageRead_judged s
  case recallCompletion => exact execRecallCompletion_judged s
  case powerLoss => exact .ite (.stay s) (.next (.of_speeds (losePower_speeds s)))
  all_goals exact request_judged _ s

/-- The idle step takes a command that is due, or lets time pass. -/
theorem idle_judged (s : State) : AnswerKeepsJudged s (idle s) := by
  refine .ite ?_ (.stay s)
  split
  · next i _ =>
    exact fun t e => KeepsJudged.trans (t := { s with choices := s.choices + 1 }) (.of_speeds rfl) (exec_judged i _ t e)
  · exact .next (passTime_judged 1 s)

/-- Settles O11: an event either leaves what the invariant reads, or ends its change of it with a capture update. -/
theorem stepKeepsCapture : Obligations.StepKeepsCapture := by
  unfold Obligations.StepKeepsCapture
  intro s t ok e
  unfold step at e
  split at e
  · next i rest _ => exact exec_judged i { s with pending := rest } t e (KeepsJudged.of_speeds (s := s) rfl ok)
  · exact idle_judged s t e ok

end Sys2Proof.SpeedCapture
end

section
/-! SUPPORT. Pulse edges (03 R42 to R45): O29. -/

namespace Sys2Proof.SpeedCapture
open Sys2Proof Sys2Proof.Machine Sys2Proof.Signals

/-! ## A channel's record and the capture update after its change -/

theorem onCap_onCap (ch : CapCh) (f g : CapRun → CapRun) (s : State) : onCap ch f (onCap ch g s) = onCap ch (f ∘ g) s := by
  cases ch <;> rfl

/-- A capture update touches only the loss and return timers of a channel's record. -/
theorem captureUpdate_run_tests (s : State) (ch : CapCh) :
    (captureUpdate s).capture.get ch = { s.capture.get ch with
      lossT := ((captureUpdate s).capture.get ch).lossT, returnT := ((captureUpdate s).capture.get ch).returnT } := by
  rw [captureUpdate_run]; rfl

/-- What the change of one channel's record and the capture update after it come to. -/
theorem changeAndUpdate_effect (ch : CapCh) (f : CapRun → CapRun) (w : State) :
    let u := captureUpdate (onCap ch f w)
    u.capture.get ch = { f (w.capture.get ch) with
      lossT := (u.capture.get ch).lossT, returnT := (u.capture.get ch).returnT }
    ∧ CaptureJudged u ∧ u = { w with capture := u.capture, faults := u.faults, ev := u.ev } := by
  have tests := captureUpdate_run_tests (onCap ch f w) ch
  rw [onCap_capture, Capture.get_set_same] at tests
  exact ⟨tests, captureUpdate_judged _, Captures.trans (s := w) (t := onCap ch f w) rfl (captureUpdate_captures _)⟩

theorem measured_eq (st : CapStatus) : st.measured = if st = .lost then .lost else .running := by cases st <;> rfl

/-- A channel's record at standstill (03 R45), before the tests. -/
def stilled (r : CapRun) : CapRun :=
  { r with speed := 0, measuring := false, status := if r.status = .lost then .lost else .standstill, count := 0
           windowT := none, standstillT := none, returnT := none, mode := .period, lastEdge := none }

theorem standstillExpired_eq (ch : CapCh) (s : State) : standstillExpired ch s = captureUpdate (onCap ch stilled s) := by
  unfold standstillExpired
  congr 2
  funext r
  cases e : r.status <;> simp [stilled, e]

/-! ## The three kinds of edge (03 R42 to R44) -/

theorem edge_counted {ch : CapCh} {s : State} (count : (s.capture.get ch).mode = .count) (high : Bool) (clk : Clock) :
    edge ch high clk s = onCap ch (fun r => { r with
      forward := high, standstillT := some 400000, count := min (r.count + 1) 65535, lastEdge := some clk }) s := by
  unfold edge
  simp only [onCap_capture, Capture.get_set_same, count, onCap_onCap]
  rfl

theorem edge_arms {ch : CapCh} {s : State} (period : (s.capture.get ch).mode = .period)
    (none : (s.capture.get ch).lastEdge = none) (high : Bool) (clk : Clock) :
    edge ch high clk s = onCap ch (fun r => { r with forward := high, standstillT := some 400000, lastEdge := some clk }) s := by
  unfold edge
  simp only [onCap_capture, Capture.get_set_same, period, none, onCap_onCap]
  rfl

/-- A channel's record when an edge at `clk` has ended a period of `t` µs with pulse distance `cp` (03 R43), before the
tests. -/
def measuredRun (high : Bool) (clk : Clock) (cp t : Nat) (r : CapRun) : CapRun :=
  { r with
    forward := high, standstillT := some 400000, lastEdge := some clk, lastPeriod := some t
    speed := signedSpeed high (cp * 1000 / t), measuring := true
    status := if r.status = .lost then .lost else .running
    mode := if t < 1000 then .count else .period, count := if t < 1000 then 0 else r.count
    windowT := if t < 1000 then some 20000 else r.windowT }

theorem edge_endsPeriod {ch : CapCh} {s : State} {before : Clock} (period : (s.capture.get ch).mode = .period)
    (remembered : (s.capture.get ch).lastEdge = some before) (high : Bool) (clk : Clock) :
    edge ch high clk s =
      captureUpdate (onCap ch (measuredRun high clk (s.capCfg ch).cp (max (clk - before).toNat 1)) s) := by
  unfold edge
  simp only [onCap_capture, Capture.get_set_same, period, remembered, endPeriod, onCap_onCap]
  congr 2
  funext r
  simp only [Function.comp_apply, measured_eq]
  rfl

/-! ## PULSE_EDGE -/

section
variable {ch : CapCh} {high : Bool} {clk : Clock} {s : State}

theorem endsBefore_iff {t : Timer} {n : Nat} : t.endsBefore n = true ↔ ∃ r, t = some r ∧ r < n := by
  cases t <;> simp [Timer.endsBefore]

theorem exec_edgeUnfitted (run : s.power = .running) (unfitted : (s.tables.drive.cap ch).fitted = false) :
    exec (.pulseEdge ch high clk) s = .next (advance (clk - s.clock).toNat s) := by
  have off : ((advance (clk - s.clock).toNat s).capCfg ch).fitted ≠ true := by
    unfold State.capCfg; rw [advance_tables, unfitted]; exact Bool.false_ne_true
  show execPulseEdge ch high clk s = _
  unfold execPulseEdge
  rw [if_pos run]
  exact if_neg off

/-- On a fitted channel the edge is taken at its clock reading, a standstill that has passed being taken before it. -/
theorem exec_edgeFitted (run : s.power = .running) (fitted : (s.tables.drive.cap ch).fitted = true) :
    let w := advance (clk - s.clock).toNat s
    exec (.pulseEdge ch high clk) s = .next (event (edge ch high clk)
      (if (s.capture.get ch).standstillT.endsBefore (clk - s.clock).toNat = true then event (standstillExpired ch) w else w)) := by
  have on : ((advance (clk - s.clock).toNat s).capCfg ch).fitted = true := by
    unfold State.capCfg; rw [advance_tables]; exact fitted
  show execPulseEdge ch high clk s = _
  unfold execPulseEdge
  rw [if_pos run]
  exact if_pos on

theorem exec_edgeInTime (run : s.power = .running) (fitted : (s.tables.drive.cap ch).fitted = true)
    (inTime : ∀ r, (s.capture.get ch).standstillT = some r → (clk - s.clock).toNat ≤ r) :
    exec (.pulseEdge ch high clk) s = .next (finish (edge ch high clk (s.openedAt (clk - s.clock).toNat))) := by
  have early : ¬(s.capture.get ch).standstillT.endsBefore (clk - s.clock).toNat = true := fun late => by
    obtain ⟨r, running, lt⟩ := endsBefore_iff.1 late
    exact absurd (inTime r running) (Nat.not_le.2 lt)
  rw [exec_edgeFitted run fitted, if_neg early]; rfl

theorem exec_edgeLate (run : s.power = .running) (fitted : (s.tables.drive.cap ch).fitted = true) {r : Nat}
    (running : (s.capture.get ch).standstillT = some r) (late : r < (clk - s.clock).toNat) :
    exec (.pulseEdge ch high clk) s = .next (finish (edge ch high clk
      (finish (standstillExpired ch (s.openedAt (clk - s.clock).toNat))).opened)) := by
  rw [exec_edgeFitted run fitted, if_pos (endsBefore_iff.2 ⟨r, running, late⟩)]; rfl

end

/-- The channel at standstill, when the event that brought it has ended. -/
theorem finish_standstill (ch : CapCh) (w : State) :
    let v := finish (standstillExpired ch w)
    v.capture.get ch = { stilled (w.capture.get ch) with
      lossT := (v.capture.get ch).lossT, returnT := (v.capture.get ch).returnT }
    ∧ signals v = signals w := by
  have capture : (finish (standstillExpired ch w)).capture = (standstillExpired ch w).capture :=
    congrArg Prod.snd (finish_speeds (standstillExpired ch w))
  refine ⟨?_, (finish_signals _).trans (standstillExpired_signals ch w)⟩
  rw [capture, standstillExpired_eq]
  exact (changeAndUpdate_effect ch stilled w).1

/-- Settles O29: an edge by the mode of its channel, after the standstill that it may find passed. -/
theorem pulseEdgeIsTaken : Obligations.PulseEdgeIsTaken := by
  unfold Obligations.PulseEdgeIsTaken
  intro ch high clk s run
  have cfg : (s.openedAt (clk - s.clock).toNat).capCfg ch = s.tables.drive.cap ch := by
    unfold State.capCfg; rw [openedAt_tables]
  refine ⟨fun unfitted => exec_edgeUnfitted run unfitted, fun fitted inTime count => ?_,
    fun fitted inTime period none => ?_, fun before fitted inTime period remembered => ?_,
    fun r fitted running late => ?_⟩
  · exact .of (exec_edgeInTime run fitted inTime) (edge_counted count high clk)
  · exact .of (exec_edgeInTime run fitted inTime) (edge_arms period none high clk)
  · refine .of (exec_edgeInTime run fitted inTime) ?_
    rw [edge_endsPeriod period remembered, cfg]
    exact changeAndUpdate_effect ch _ _
  · refine .of (exec_edgeLate run fitted running late) ?_
    obtain ⟨still, same⟩ := finish_standstill ch (s.openedAt (clk - s.clock).toNat)
    generalize finish (standstillExpired ch (s.openedAt (clk - s.clock).toNat)) = v at still same
    have still' : v.opened.capture.get ch = _ := still
    rw [edge_arms (by rw [still']; rfl) (by rw [still']; rfl)]
    dsimp only
    rw [onCap_capture, Capture.get_set_same, still']
    exact ⟨rfl, rfl, rfl, rfl, rfl, rfl, rfl, (tables_of_signals same).trans (openedAt_tables _ s), slots_of_signals same⟩

end Sys2Proof.SpeedCapture
end

section
/-! SUPPORT. The expiries of speed capture's timers (03 R44, R45, R48 to R51), and what a capture update leaves of the
condition its event reported: O30. -/

namespace Sys2Proof.SpeedCapture
open Sys2Proof Sys2Proof.Machine Sys2Proof.Signals

/-! ## Conditions that reports of others leave -/

/-- A general record has the condition ACTIVE, or the aggregate has it merged. `Signals.Active` also counts an aggregate
whose own kind is the condition's, as a list outside its rules may have it, and the end of a merged condition latches that
one; a condition listed here stays through the end of any other, whatever the list. -/
def Listed (f : Faults) (k : Kind) (n : Nat) : Prop :=
  (∃ (i : Fin 15) (r : FaultRec), f.places[i] = some r ∧ (r.kind = k ∧ r.subject = n) ∧ r.latched = false)
  ∨ f.mergedHas k n = true

theorem Listed.holds {f : Faults} {k : Kind} {n : Nat} (h : Listed f k n) : f.holds k n = true := by
  rcases h with ⟨i, r, here, is, active⟩ | merged
  · exact holds_of_place here is active
  · exact holds_of_merged merged

theorem mergeReport_listed (k n sev c) (s : State) : Listed (mergeReport k n sev c s).faults k n := by
  right
  unfold mergeReport
  split
  · simp [markFaultChange, Faults.mergedHas, firstAggregate]
  · next a _ =>
    rw [markFaultChangeIf_faults]
    show (a.join k n c sev).merged.contains (k, n) = true
    unfold FaultRec.join
    dsimp only
    split
    · assumption
    · simp

theorem placeRecord_listed (i k n sev) (s : State) : Listed (placeRecord i k n sev s).faults k n :=
  .inl ⟨i, newRecord s k n sev, by simp [placeRecord, markFaultChange], ⟨rfl, rfl⟩, rfl⟩

/-- A reported condition is listed (10 R156 to R158). -/
theorem reportBegun_listed (k : Kind) (n : Nat) (sev : Fin 4) (s : State) : Listed (reportBegun k n sev s).faults k n := by
  unfold reportBegun
  dsimp only
  split
  · next i found =>
    obtain ⟨r, here, is⟩ := find_some found
    have here' : (s.faults.settled k n).places[i] = some r := here
    rw [here']
    dsimp only
    rw [markFaultChangeIf_faults]
    exact .inl ⟨i, r.takeReport (!s.faults.waits k n) sev, by simp, is, rfl⟩
  · split
    · exact mergeReport_listed ..
    · unfold enterRecord
      split
      · exact placeRecord_listed ..
      · split
        · exact placeRecord_listed ..
        · exact mergeReport_listed ..

/-- The end of a condition of another kind leaves a condition listed (10 R159). -/
theorem reportEnded_listed {k k' : Kind} {n : Nat} (other : k' ≠ k) (n' : Nat) {s : State} (h : Listed s.faults k n) :
    Listed (reportEnded k' n' s).faults k n := by
  unfold reportEnded
  dsimp only
  split
  · next j found =>
    obtain ⟨q, there, kind, -⟩ := find_some found
    rcases h with ⟨i, r, here, is, active⟩ | merged
    · refine .inl ⟨i, r, ?_, is, active⟩
      have ne : j.val ≠ i.val := fun e => by
        obtain rfl : r = q := Option.some.inj (here.symm.trans (Fin.ext e ▸ there))
        exact other (kind.symm.trans is.1)
      have here' : (s.faults.settled k' n').places[i.val] = some r := here
      simpa [Vector.getElem_set_ne, ne] using here'
    · exact .inr merged
  · split
    · rcases h with place | merged
      · exact .inl place
      · right
        unfold Faults.mergedHas at *
        obtain ⟨a, ha, m⟩ := (Option.any_eq_true _ _).1 merged
        have ha' : (s.faults.settled k' n').aggregate = some a := ha
        have left : (k, n) ∈ a.merged.erase (k', n') :=
          (List.mem_erase_of_ne fun e => other (congrArg Prod.fst e).symm).2 (by simpa using m)
        rw [ha']
        simpa [FaultRec.without] using left
    · exact h

/-- What holds of the fault list through the ends of conditions other than SPEED_CHANNEL_LOST, and through the beginning of
SPEED_NONE where it begins, holds after a capture update. -/
theorem captureUpdate_faults (P : Faults → Prop) (s : State)
    (ended : ∀ k n (u : State), k ≠ .speedChannelLost → P u.faults → P (reportEnded k n u).faults)
    (begun : s.capture.noneBegun = false → (captureUpdate s).capture.noneBegun = true →
      ∀ u : State, P u.faults → P (reportBegun .speedNone 0 2 u).faults)
    (h : P s.faults) : P (captureUpdate s).faults := by
  have endedIf (b k) (u : State) (ne : k ≠ .speedChannelLost) (hu : P u.faults) : P (reportEndedIf b k 0 u).faults := by
    cases b
    · exact hu
    · exact ended k 0 u ne hu
  have formed : P (disagreementTest { s with capture.s := combined s }).faults := by
    unfold disagreementTest; dsimp only; split
    · split <;> exact h
    · exact endedIf _ _ _ (by decide) h
  have tested : P (lossReturnTest .b (lossReturnTest .a (disagreementTest { s with capture.s := combined s }))).faults := formed
  have was : (lossReturnTest .b (lossReturnTest .a (disagreementTest { s with capture.s := combined s }))).capture.noneBegun
      = s.capture.noneBegun := by
    simp only [lossReturnTest_capture, disagreementTest_capture]; rfl
  unfold captureUpdate at begun ⊢
  dsimp only at begun ⊢
  generalize lossReturnTest .b _ = v at begun tested was ⊢
  rw [speedNoneTest_capture] at begun
  unfold speedNoneTest
  dsimp only
  split
  · next first =>
    rw [Bool.and_eq_true, was, Bool.not_eq_true'] at first
    obtain ⟨now, notYet⟩ := first
    exact begun notYet now _ tested
  · exact endedIf _ _ _ (by decide) tested

/-! ## Windows and standstill (03 R44, R45) -/

/-- A channel's record when a window has ended with pulse distance `cp` (03 R44), before the tests. -/
def windowRun (cp : Nat) (r : CapRun) : CapRun :=
  { r with
    speed := signedSpeed r.forward (r.count * cp / 20), measuring := true
    status := if r.status = .lost then .lost else .running, count := 0
    windowT := if 10 ≤ r.count then some 20000 else none
    mode := if 10 ≤ r.count then r.mode else .period
    lastEdge := if 10 ≤ r.count then r.lastEdge else none }

theorem windowExpired_eq (ch : CapCh) (s : State) :
    windowExpired ch s = captureUpdate (onCap ch (windowRun (s.capCfg ch).cp) s) := by
  unfold windowExpired
  dsimp only
  congr 2
  funext r
  by_cases few : 10 ≤ r.count <;> simp [windowRun, few, measured_eq, msTimer, Config.windowMs]

/-! ## Loss and return (03 R49 to R51) -/

/-- A change of one channel's status and a report, with the capture update after them. -/
theorem statusUpdate_effect (ch : CapCh) (f : CapRun → CapRun) (w v : State) (report : Reports (onCap ch f w) v)
    (speed : ∀ r, (f r).speed = r.speed) :
    ((captureUpdate v).capture.get ch).status = (f (w.capture.get ch)).status
    ∧ ((captureUpdate v).capture.get ch).speed = (w.capture.get ch).speed ∧ CaptureJudged (captureUpdate v)
    ∧ captureUpdate v = { w with capture := (captureUpdate v).capture, faults := (captureUpdate v).faults
                                 ev := (captureUpdate v).ev } := by
  have run : v.capture.get ch = f (w.capture.get ch) := by
    rw [capture_of_reports report, onCap_capture, Capture.get_set_same]
  have same := captureUpdate_reads v
  refine ⟨?_, ?_, captureUpdate_judged v, ?_⟩
  · rw [same.status, run]
  · rw [same.speed, run, speed]
  · exact Captures.trans (s := w) (t := onCap ch f w) rfl ((Captures.of_reports report).trans (captureUpdate_captures v))

theorem lossT_lost {u : State} {ch : CapCh} (ok : CaptureJudged u) (lost : (u.capture.get ch).status = .lost) :
    (u.capture.get ch).lossT = none := by
  by_contra running
  obtain ⟨-, still, -⟩ := lossHolds_iff.1 ((captureJudged_iff.1 ok).loss ch running)
  rw [lost] at still; cases still

theorem returnT_running {u : State} {ch : CapCh} (ok : CaptureJudged u) (run : (u.capture.get ch).status = .running) :
    (u.capture.get ch).returnT = none := by
  by_contra running
  obtain ⟨lost, -⟩ := returnHolds_iff.1 ((captureJudged_iff.1 ok).back ch running)
  rw [run] at lost; cases lost

/-- The channel that the loss timer makes LOST is reported so, and stays listed unless SPEED_NONE begins (03 R49, R51). -/
theorem lossExpired_holds (ch : CapCh) (w : State)
    (h : w.capture.noneBegun = true ∨ (lossExpired ch w).capture.noneBegun = false) :
    (lossExpired ch w).faults.holds .speedChannelLost (capNumber ch) = true := by
  refine (captureUpdate_faults (Listed · .speedChannelLost (capNumber ch)) _ (fun k n u ne hu => reportEnded_listed ne n hu)
    (fun was now => ?_) (reportBegun_listed ..)).holds
  have before : w.capture.noneBegun = false := by
    rw [← was, capture_of_reports (reportBegun_reports ..)]; cases ch <;> rfl
  rcases h with h | h
  · rw [before] at h; cases h
  · exact absurd (h.symm.trans now) Bool.false_ne_true

/-- The channel that the return timer makes RUNNING has its condition ended, which no report of the update renews (03 R50). -/
theorem returnExpired_holds (ch : CapCh) {w : State} (list : FaultListOk w) :
    (returnExpired ch w).faults.holds .speedChannelLost (capNumber ch) = false :=
  (captureUpdate_faults (Gone · .speedChannelLost (capNumber ch)) _ (fun k n u _ hu => reportEnded_gone k n u hu)
    (fun _ _ u hu => reportBegun_gone (by decide) (by decide) _ u hu)
    (reportEnded_ends (s := onCap ch _ w) (capNumber ch) list (by decide))).holds

/-- Settles O30: the effects of the five bodies on the state that time has run on to. -/
theorem captureTimersEnd : Obligations.CaptureTimersEnd := by
  unfold Obligations.CaptureTimersEnd
  refine ⟨fun ch s r run => ⟨fun timer => ?_, fun timer => ?_⟩,
    fun ch s r run => ⟨fun timer => ?_, fun timer => ?_, fun timer => ?_⟩⟩
  · refine .of (expires_of run timer) ?_
    rw [windowExpired_eq, show (s.openedAt r).capCfg ch = s.tables.drive.cap ch by unfold State.capCfg; rw [openedAt_tables]]
    exact changeAndUpdate_effect ch _ _
  · refine .of (expires_of run timer) ?_
    rw [standstillExpired_eq]
    exact changeAndUpdate_effect ch stilled _
  · exact .of (expires_of run timer) ⟨rfl, reportBegun_holds ..⟩
  · have effect := statusUpdate_effect ch (fun r => { r with lossT := none, status := .lost }) (s.openedAt r) _
      (reportBegun_reports .speedChannelLost (capNumber ch) captureSeverity _) fun _ => rfl
    have ⟨lost, _, judged, _⟩ := effect
    exact .of (expires_of run timer) ⟨effect, lossT_lost judged lost, lossExpired_holds ch _⟩
  · have effect := statusUpdate_effect ch (fun r => { r with returnT := none, status := .running }) (s.openedAt r) _
      (reportEnded_reports .speedChannelLost (capNumber ch) _) fun _ => rfl
    have ⟨back, _, judged, _⟩ := effect
    exact .of (expires_of run timer)
      ⟨effect, returnT_running judged back, fun ok => returnExpired_holds ch (openedAt_faultListOk ok r)⟩

end Sys2Proof.SpeedCapture
end

section
/-! SUPPORT. The value of a curve (04 R54): what a segment of it reads, and the truncation toward zero: O31. -/

namespace Sys2Proof.Profiles
open Sys2Proof Sys2Proof.Machine

/-! ## A share of a rise or fall, truncated toward zero -/

/-- The truncated share d/n of a rise lies between 0 and the rise, and is not above the exact share. -/
theorem tdiv_share_of_rise {k d n : Int} (rise : 0 ≤ k) (d0 : 0 ≤ d) (dn : d < n) :
    0 ≤ Int.tdiv (k * d) n ∧ Int.tdiv (k * d) n ≤ k ∧ n * Int.tdiv (k * d) n ≤ k * d := by
  have share : 0 ≤ k * d := Int.mul_nonneg rise d0
  have below : n * Int.tdiv (k * d) n ≤ k * d := Int.mul_tdiv_self_le share
  refine ⟨Int.tdiv_nonneg share (by omega), ?_, below⟩
  refine Int.le_of_mul_le_mul_left ?_ (show 0 < n by omega)
  calc n * Int.tdiv (k * d) n ≤ k * d := below
    _ ≤ k * n := Int.mul_le_mul_of_nonneg_left (Int.le_of_lt dn) rise
    _ = n * k := Int.mul_comm k n

/-- The same of a fall, whose truncated share is not below the exact one. -/
theorem tdiv_share_of_fall {k d n : Int} (fall : k ≤ 0) (d0 : 0 ≤ d) (dn : d < n) :
    k ≤ Int.tdiv (k * d) n ∧ Int.tdiv (k * d) n ≤ 0 ∧ k * d ≤ n * Int.tdiv (k * d) n := by
  have mirrored := tdiv_share_of_rise (k := -k) (by omega) d0 dn
  rw [Int.neg_mul, Int.neg_tdiv, Int.mul_neg] at mirrored
  omega

/-! ## The cases of the evaluation -/

section
variable (c : Curve)

theorem eval_below {x : Int} (h : x < 0) : c.eval x = c.eval 0 := by
  unfold Curve.eval
  simp only [Int.toNat_of_nonpos (Int.le_of_lt h), Int.toNat_zero]

theorem eval_beyond {x : Int} (pos : 1 ≤ c.step) (h : 8 * c.step ≤ x) : c.eval x = c.ys[8] := by
  have past : ¬x.toNat / c.step < 8 := by
    rw [Nat.not_lt, Nat.le_div_iff_mul_le pos]; omega
  exact dif_neg past

/-- The rise or fall of segment `i`. -/
def rise (i : Fin 8) : Int := (c.ys[i.val + 1] : Int) - c.ys[i.val]

/-- The truncated share of the segment's rise or fall at `d` after its start. -/
def share (i : Fin 8) (d : Nat) : Int := Int.tdiv (rise c i * d) c.step

theorem eval_segment (i : Fin 8) {d : Nat} (h : d < c.step) :
    c.eval ((i.val * c.step + d : Nat) : Int) = (c.ys[i.val] + share c i d).toNat := by
  have index : (i.val * c.step + d) / c.step = i.val := by
    rw [Nat.mul_comm, Nat.mul_add_div (by omega), Nat.div_eq_of_lt h, Nat.add_zero]
  have past : ((i.val * c.step + d : Nat) : Int) - (i.val : Int) * c.step = d := by
    push_cast; omega
  unfold Curve.eval
  simp only [Int.toNat_natCast, index, past]
  rw [dif_pos i.isLt, if_neg (by omega)]
  rfl

end

section
variable {c : Curve} {i : Fin 8} {d : Nat} (h : d < c.step)
include h

theorem share_of_rise (up : 0 ≤ rise c i) :
    0 ≤ share c i d ∧ share c i d ≤ rise c i ∧ c.step * share c i d ≤ rise c i * d :=
  tdiv_share_of_rise up (Int.natCast_nonneg d) (by omega)

theorem share_of_fall (down : rise c i ≤ 0) :
    rise c i ≤ share c i d ∧ share c i d ≤ 0 ∧ rise c i * d ≤ c.step * share c i d :=
  tdiv_share_of_fall down (Int.natCast_nonneg d) (by omega)

/-- The start with the share of the rise or fall lies between the end points. -/
theorem share_between :
    min (c.ys[i.val] : Int) c.ys[i.val + 1] ≤ c.ys[i.val] + share c i d
    ∧ c.ys[i.val] + share c i d ≤ max (c.ys[i.val] : Int) c.ys[i.val + 1] := by
  have ends : rise c i = (c.ys[i.val + 1] : Int) - c.ys[i.val] := rfl
  rcases Int.le_total 0 (rise c i) with up | down
  · have ⟨low, high, _⟩ := share_of_rise h up
    omega
  · have ⟨low, high, _⟩ := share_of_fall h down
    omega

/-- No segment falls below 0, so its value is the start and the share of the rise or fall. -/
theorem eval_segment_int :
    (c.eval ((i.val * c.step + d : Nat) : Int) : Int) = c.ys[i.val] + share c i d := by
  have ⟨low, _⟩ := share_between (i := i) h
  rw [eval_segment c i h, Int.toNat_of_nonneg (by omega)]

end

/-- Settles O31: the two ends, and between them the share of a segment's rise or fall. -/
theorem curveValue : Obligations.CurveValue := by
  unfold Obligations.CurveValue
  intro c x pos
  refine ⟨eval_below c, eval_beyond c pos, fun i d h => ?_⟩
  intro y0 y1 y
  have value : y = y0 + share c i d := eval_segment_int h
  have past : y - y0 = share c i d := by omega
  have ⟨low, high⟩ : min y0 y1 ≤ y ∧ y ≤ max y0 y1 := value ▸ share_between h
  refine ⟨value, low, high, fun start => ?_, fun limit => ?_, fun up => ?_, fun down => ?_⟩
  · rw [value, start, share, Nat.cast_zero, Int.mul_zero, Int.zero_tdiv, Int.add_zero]
  · have first : c.ys[i.val] ≤ 20000 := limit i.castSucc
    have last : c.ys[i.val + 1] ≤ 20000 := limit i.succ
    omega
  · rw [past]; exact (share_of_rise h (Int.sub_nonneg.2 up)).2.2
  · rw [past]; exact (share_of_fall h (Int.sub_nonpos_of_le down)).2.2

end Sys2Proof.Profiles
end

section
/-! SUPPORT. A governor period outside the governor's own travel (04 R58 to R63; 05 R73, R76, R87): what its stages leave,
the profile that is weighed, and O32. -/

namespace Sys2Proof.Profiles
open Sys2Proof Sys2Proof.Machine

/-! ## What the governor's own work leaves

`besideTravel` blanks what the stages of a period are there to change: the travel fields of the governor record, the fault
list but for the level, and the marks of the event. Every stage leaves the rest, one lemma per operation. -/

/-- The state without the governor's travel, without the conditions reported and without the event's marks. -/
def besideTravel (s : State) : State :=
  { s with
    gov := { s.gov with state := .held, dir := 0, v := 0, p := 0, i := 0, mark := .none, cruise := none,
                        overspeedMs := 0, engineLow := false, overspeed := false }
    faults := { Faults.empty with level := s.faults.level }
    ev := .none }

theorem besideTravel_ite {c : Prop} [Decidable c] {s t u : State} (h : besideTravel t = besideTravel s)
    (k : besideTravel u = besideTravel s) : besideTravel (if c then t else u) = besideTravel s := by
  split
  · exact h
  · exact k

/-- Where the rest is that of another state but for selector and governor record, so is the state itself. -/
theorem frame_of_besideTravel {u v : State} {f : Gov → Gov} {x : Selector}
    (h : besideTravel u = onGov f { besideTravel v with selector := x }) :
    u = { v with selector := x, gov := u.gov, faults := u.faults, ev := u.ev } :=
  congrArg (fun t : State => { t with gov := u.gov, faults := u.faults, ev := u.ev }) h

/-! ### Reports -/

theorem markFaultChangeIf_faults (b : Bool) (s : State) : (markFaultChangeIf b s).faults = s.faults := by cases b <;> rfl
theorem mergeReport_level (k n sev c) (s : State) : (mergeReport k n sev c s).faults.level = s.faults.level := by
  unfold mergeReport; split
  · rfl
  · rw [markFaultChangeIf_faults]
theorem enterRecord_level (k n sev) (s : State) : (enterRecord k n sev s).faults.level = s.faults.level := by
  unfold enterRecord; split
  · rfl
  · split
    · rfl
    · exact mergeReport_level _ _ _ _ _

/-- A report does not publish: the level is formed at the end of the event (10 R161). -/
theorem reportBegun_level (k n sev) (s : State) : (reportBegun k n sev s).faults.level = s.faults.level := by
  unfold reportBegun; dsimp only; split
  · split
    · rw [markFaultChangeIf_faults]; rfl
    · rfl
  · split
    · exact (mergeReport_level _ _ _ _ _).trans rfl
    · exact (enterRecord_level _ _ _ _).trans rfl

theorem besideTravel_of_reports {s t : State} (h : Reports s t) (level : t.faults.level = s.faults.level) :
    besideTravel t = besideTravel s := by
  unfold Reports at h
  unfold besideTravel
  rw [level, h]

theorem reportBegun_besideTravel (k n sev) (s : State) : besideTravel (reportBegun k n sev s) = besideTravel s :=
  besideTravel_of_reports (reportBegun_reports ..) (reportBegun_level ..)
theorem reportEnded_besideTravel (k n) (s : State) : besideTravel (reportEnded k n s) = besideTravel s :=
  besideTravel_of_reports (reportEnded_reports ..) (reportEnded_level ..)
theorem reportEndedIf_besideTravel (b k n) (s : State) : besideTravel (reportEndedIf b k n s) = besideTravel s :=
  besideTravel_of_reports (reportEndedIf_reports ..) (reportEndedIf_level ..)

/-! ### The stages -/

theorem enterHeld_besideTravel (s : State) : besideTravel (enterHeld s) = besideTravel s :=
  reportEndedIf_besideTravel _ _ _ _
theorem enterNeutral_besideTravel (s : State) : besideTravel (enterNeutral s) = besideTravel s :=
  reportEndedIf_besideTravel _ _ _ _
theorem startTravel_besideTravel (d) (s : State) : besideTravel (startTravel d s) = besideTravel s := by
  cases d <;> rfl
theorem beginStop_besideTravel (i) (s : State) : besideTravel (beginStop i s) = besideTravel s :=
  besideTravel_ite (reportBegun_besideTravel _ _ _ _) rfl
theorem weighState_besideTravel (i) (s : State) : besideTravel (weighState i s) = besideTravel s := by
  refine besideTravel_ite (enterHeld_besideTravel s) ?_
  split
  · exact besideTravel_ite (enterHeld_besideTravel s)
      (besideTravel_ite (startTravel_besideTravel _ s) (enterNeutral_besideTravel s))
  · exact besideTravel_ite (beginStop_besideTravel _ _) rfl
  · exact besideTravel_ite (beginStop_besideTravel _ _) rfl
  · rfl
  · exact besideTravel_ite (enterNeutral_besideTravel s) (enterHeld_besideTravel s)
theorem compute_besideTravel (i) (s : State) : besideTravel (onGov (compute i) s) = besideTravel s := by
  unfold compute onGov; dsimp only; split <;> rfl
theorem endStage_besideTravel (i) (s : State) : besideTravel (endStage i s) = besideTravel s := by
  refine besideTravel_ite ?_ rfl
  split
  · exact besideTravel_ite (enterHeld_besideTravel s) (enterNeutral_besideTravel s)
  · exact besideTravel_ite (enterNeutral_besideTravel s) rfl
  · exact besideTravel_ite (enterNeutral_besideTravel s) rfl
  · rfl
  · rfl
theorem engineWatch_besideTravel (i) (s : State) : besideTravel (engineWatch i s) = besideTravel s :=
  besideTravel_ite (reportEnded_besideTravel _ _ _) rfl
theorem overspeedBegins_besideTravel (s : State) : besideTravel (overspeedBegins s) = besideTravel s :=
  reportBegun_besideTravel _ _ _ _
theorem overspeedWatch_besideTravel (i) (s : State) : besideTravel (overspeedWatch i s) = besideTravel s :=
  besideTravel_ite (besideTravel_ite (overspeedBegins_besideTravel _) rfl) (reportEndedIf_besideTravel _ _ _ _)

/-- Beside the travel, the stages set the restart lock (05 R73) and remember the CRUISE_SET they read (R76). -/
theorem governorStages_besideTravel (i : GovIn) (s : State) :
    besideTravel (governorStages i s) = onGov (fun g => { g with
      lock := g.lock || decide (2 ≤ i.level), rememberedSet := some i.cruiseSet.value }) (besideTravel s) := by
  have cruise (t : State) : besideTravel (onGov (cruiseStage i) t) =
      onGov (fun g => { g with rememberedSet := some i.cruiseSet.value }) (besideTravel t) := rfl
  unfold governorStages
  dsimp only
  rw [overspeedWatch_besideTravel, engineWatch_besideTravel, endStage_besideTravel,
    besideTravel_ite (compute_besideTravel i _) rfl, cruise, weighState_besideTravel]
  rfl

/-! ## The profile selector (04 R58 to R61) -/

/-- What a switch to `p` asks for, by the kinds of the active profile and of `p` (04 R60). -/
def SwitchAllowed (s : State) (p : Fin 4) : Prop :=
  match s.tables.profiles[s.selector.active].kind, s.tables.profiles[p].kind with
  | .work, .work => s.faults.level ≤ 1
  | .work, .transport => (∀ a, (s.arms.get a).state = .stowed) ∧ s.absSpeed ≤ 833
  | .transport, _ => s.absSpeed ≤ s.tables.profiles[p].ceiling

theorem mem_allArms (a : Arm) : a ∈ allArms := by cases a <;> decide

theorem maySwitch_iff (s : State) (p : Fin 4) : maySwitch s p = true ↔ SwitchAllowed s p := by
  unfold maySwitch SwitchAllowed State.profile Config.stowedSwitchSpeed
  dsimp only
  cases s.tables.profiles[s.selector.active].kind with
  | transport => simp
  | work =>
    cases s.tables.profiles[p].kind with
    | transport => simp [mem_allArms]
    | work => simp

/-- The selector that the weighing of a pending profile leaves (04 R59). -/
def weighedSelector (s : State) : Option (Fin 4) → Selector
  | none => { active := s.selector.active, pending := none }
  | some p => if maySwitch s p then { active := p, pending := none }
              else { active := s.selector.active, pending := some p }

theorem weighedSelector_some {s : State} {p : Fin 4} :
    (SwitchAllowed s p → weighedSelector s (some p) = { active := p, pending := none })
    ∧ (¬SwitchAllowed s p → weighedSelector s (some p) = { active := s.selector.active, pending := some p }) := by
  rw [← maySwitch_iff]
  exact ⟨fun may => if_pos may, fun not => if_neg not⟩

/-- The selector after a governor period (04 R58, R59). -/
def selectorAfter (s : State) : Selector :=
  weighedSelector s (pendingAfter s.selector.active (s.role .profileRequest) s.selector.pending)

theorem selectorStage_besideTravel (s : State) :
    besideTravel (selectorStage s) = { besideTravel s with selector := selectorAfter s } := by
  unfold selectorStage selectorAfter
  dsimp only
  cases pendingAfter s.selector.active (s.role .profileRequest) s.selector.pending with
  | none => rfl
  | some p =>
    have same (x : Option (Fin 4)) : maySwitch { s with selector.pending := x } p = maySwitch s p := rfl
    simp only [weighedSelector, same]
    split <;> rfl

/-! ### The reading of PROFILE_REQUEST -/

section
variable {active : Fin 4} {r : Reading} {pending : Option (Fin 4)}

theorem pendingAfter_unfresh (h : r.fresh = false) : pendingAfter active r pending = none := by
  unfold pendingAfter; rw [h]; rfl

/-- A fresh reading that names a profile makes it pending, or nothing where it is the active one. -/
theorem pendingAfter_names {p : Fin 4} (fresh : r.fresh = true) (names : r.value = p.val) :
    pendingAfter active r pending = if p = active then none else some p := by
  have found : fin? 4 p.val = some p := dif_pos p.isLt
  unfold pendingAfter
  rw [fresh, names, Int.toNat_natCast, found, if_pos (Int.natCast_nonneg _)]
  rfl

/-- A fresh reading that names no profile leaves what is pending. -/
theorem pendingAfter_namesNone (fresh : r.fresh = true) (none : r.value < 0 ∨ 3 < r.value) :
    pendingAfter active r pending = pending := by
  have nothing (high : 3 < r.value) : fin? 4 r.value.toNat = Option.none := dif_neg (by omega)
  unfold pendingAfter
  rw [fresh]
  rcases none with low | high
  · rw [if_neg (Int.not_le.2 low)]; rfl
  · rw [nothing high]; exact ite_self _

end

section
variable {s : State}

theorem selectorAfter_unfresh (h : (s.role .profileRequest).fresh = false) :
    selectorAfter s = { active := s.selector.active, pending := none } := by
  unfold selectorAfter; rw [pendingAfter_unfresh h]; rfl
theorem selectorAfter_namesOther {p : Fin 4} (fresh : (s.role .profileRequest).fresh = true)
    (names : (s.role .profileRequest).value = p.val) (other : p ≠ s.selector.active) :
    selectorAfter s = weighedSelector s (some p) := by
  unfold selectorAfter; rw [pendingAfter_names fresh names, if_neg other]
theorem selectorAfter_namesActive (fresh : (s.role .profileRequest).fresh = true)
    (names : (s.role .profileRequest).value = s.selector.active.val) :
    selectorAfter s = { active := s.selector.active, pending := none } := by
  unfold selectorAfter; rw [pendingAfter_names fresh names, if_pos rfl]; rfl
theorem selectorAfter_namesNone (fresh : (s.role .profileRequest).fresh = true)
    (none : (s.role .profileRequest).value < 0 ∨ 3 < (s.role .profileRequest).value) :
    selectorAfter s = weighedSelector s s.selector.pending := by
  unfold selectorAfter; rw [pendingAfter_namesNone fresh none]

end

/-- Nothing is weighed where nothing is pending. -/
theorem weighedSelector_idle {s : State} (h : s.selector.pending = none) :
    weighedSelector s s.selector.pending = s.selector := by
  rw [h]
  exact congrArg (Selector.mk s.selector.active) h.symm

/-- Which selector a period leaves reads nothing that time changes. -/
theorem openedAt_selectorAfter (r : Nat) (s : State) : selectorAfter (s.openedAt r) = selectorAfter s := by
  unfold selectorAfter
  rw [openedAt_role]
  cases r <;> rfl

/-! ## The period -/

/-- The state in which the governor's own work begins: the next period set, the selector and the motor stroke done. -/
def prepared (s : State) : State :=
  motorStage (selectorStage (onGov (fun g => { g with timer := msTimer Config.governorPeriodMs }) s))

/-- The motor stroke moves toward that of the profile then active (04 R63). -/
theorem prepared_besideTravel (s : State) :
    besideTravel (prepared s) =
      onGov (fun g => { g with
          timer := some 10000, motor := motorToward s.tables.profiles[(selectorAfter s).active].motor g.motor })
        { besideTravel s with selector := selectorAfter s } := by
  have motor (t : State) : besideTravel (motorStage t) =
      onGov (fun g => { g with motor := motorToward (besideTravel t).profile.motor g.motor }) (besideTravel t) := rfl
  unfold prepared
  rw [motor, selectorStage_besideTravel]
  rfl

/-- A governor period beside the travel: the selector, the motor stroke, the next period, the restart lock and the
remembered CRUISE_SET. -/
theorem governorBody_besideTravel (s : State) :
    besideTravel (governorBody s) =
      onGov (fun g => { g with
          timer := some 10000, motor := motorToward s.tables.profiles[(selectorAfter s).active].motor g.motor
          lock := g.lock || decide (2 ≤ s.faults.level), rememberedSet := some (s.role .cruiseSet).value })
        { besideTravel s with selector := selectorAfter s } := by
  have level : (prepared s).faults.level = s.faults.level := congrArg (·.faults.level) (prepared_besideTravel s)
  have set : (prepared s).role .cruiseSet = s.role .cruiseSet := congrArg (·.role .cruiseSet) (prepared_besideTravel s)
  have body : besideTravel (governorBody s) =
      besideTravel (governorStages (govInputs (prepared s)) (prepared s)) := rfl
  rw [body, governorStages_besideTravel, prepared_besideTravel]
  unfold govInputs
  dsimp only
  rw [level, set]
  rfl

section
variable (s : State)

theorem governorBody_selector : (governorBody s).selector = selectorAfter s :=
  congrArg (·.selector) (governorBody_besideTravel s)
theorem governorBody_motor : (governorBody s).gov.motor =
    motorToward s.tables.profiles[(governorBody s).selector.active].motor s.gov.motor := by
  simp only [governorBody_selector]
  exact congrArg (·.gov.motor) (governorBody_besideTravel s)
theorem governorBody_lock : (governorBody s).gov.lock = (s.gov.lock || decide (2 ≤ s.faults.level)) :=
  congrArg (·.gov.lock) (governorBody_besideTravel s)
theorem governorBody_rememberedSet : (governorBody s).gov.rememberedSet = some (s.role .cruiseSet).value :=
  congrArg (·.gov.rememberedSet) (governorBody_besideTravel s)
theorem governorBody_timer : (governorBody s).gov.timer = some 10000 :=
  congrArg (·.gov.timer) (governorBody_besideTravel s)
theorem governorBody_level : (governorBody s).faults.level = s.faults.level :=
  congrArg (·.faults.level) (governorBody_besideTravel s)

/-- A governor period changes the selector, the governor record, the fault list and the event's marks only. -/
theorem governorBody_frame :
    governorBody s = { s with selector := (governorBody s).selector, gov := (governorBody s).gov
                              faults := (governorBody s).faults, ev := (governorBody s).ev } := by
  rw [governorBody_selector]
  exact frame_of_besideTravel (governorBody_besideTravel s)

end

/-- At the target the motor stroke stands, which is then the target. -/
theorem motorToward_eq (target m : Nat) : motorToward target m =
    if m < target then min (m + 5) target else if target < m then max (m - 5) target else target := by
  unfold motorToward
  split
  · rfl
  · split
    · rfl
    · omega

theorem openedAt_motor (r : Nat) (s : State) : (s.openedAt r).gov.motor = s.gov.motor := by cases r <;> rfl
theorem openedAt_lock (r : Nat) (s : State) : (s.openedAt r).gov.lock = s.gov.lock := advance_gov_lock r s
theorem openedAt_level (r : Nat) (s : State) : (s.openedAt r).faults.level = s.faults.level := advance_faults_level r s

/-- Settles O32: the selector by the reading of PROFILE_REQUEST, and the part of a period beside the travel field by
field. -/
theorem governorPeriodSelects : Obligations.GovernorPeriodSelects := by
  unfold Obligations.GovernorPeriodSelects
  intro s r run timer w ask old speed may weighed
  have selector : (governorBody w).selector = selectorAfter s :=
    (governorBody_selector w).trans (openedAt_selectorAfter r s)
  have weighs (p : Fin 4) : weighed p (weighedSelector s (some p)) := weighedSelector_some
  refine .of (expires_of run timer) ⟨fun unfresh => ?_, fun p fresh names other => ?_, fun fresh names => ?_,
    fun fresh none => ⟨fun empty => ?_, fun p pending => ?_⟩, ?_, ?_, ?_, governorBody_timer w, governorBody_frame w, ?_⟩
  · rw [selector]; exact selectorAfter_unfresh unfresh
  · rw [selector, selectorAfter_namesOther fresh names other]; exact weighs p
  · rw [selector]; exact selectorAfter_namesActive fresh names
  · rw [selector, selectorAfter_namesNone fresh none]; exact weighedSelector_idle empty
  · rw [selector, selectorAfter_namesNone fresh none, pending]; exact weighs p
  · rw [governorBody_motor, motorToward_eq, openedAt_tables, openedAt_motor]
  · rw [governorBody_lock, openedAt_lock, openedAt_level]
  · rw [governorBody_rememberedSet, openedAt_role]
  · rw [governorBody_level, openedAt_level]

end Sys2Proof.Profiles
end

section
/-! SUPPORT. The fields that the governor's invariant (O8) reads, and every operation outside the profile selector and the
travel governor (04, 05), which leaves them. -/

namespace Sys2Proof.Travel
open Sys2Proof Sys2Proof.Machine Sys2Proof.Signals

/-! ## What the governor's invariant reads -/

/-- The governor record without what others than the governor change: the restart lock (10 R160), the period timer and the
condition OVERSPEED. -/
def travelOf (g : Gov) : Gov := { g with lock := false, timer := none, overspeed := false }

/-- All that the governor's invariant reads. -/
def governed (s : State) : Vector Profile 4 × Selector × Gov × Bool × Fin 4 :=
  (s.tables.profiles, s.selector, travelOf s.gov, s.service.session, s.faults.level)

/-- A function of the state that both branches leave. -/
theorem field_ite {β : Type} {φ : State → β} {c : Prop} [Decidable c] {s t u : State} (h : φ t = φ s) (k : φ u = φ s) :
    φ (if c then t else u) = φ s := by
  split
  · exact h
  · exact k
theorem governed_ite {c : Prop} [Decidable c] {s t u : State} (h : governed t = governed s)
    (k : governed u = governed s) : governed (if c then t else u) = governed s := field_ite h k
theorem governed_foldl {α : Type} {f : State → α → State} (h : ∀ s a, governed (f s a) = governed s) (l : List α)
    (s : State) : governed (l.foldl f s) = governed s := foldl_field governed f h l s

/-! ### Reports and acknowledgements (10) -/

theorem governed_of_reports {s t : State} (h : Reports s t) (level : t.faults.level = s.faults.level) :
    governed t = governed s := by
  unfold Reports at h
  unfold governed
  rw [level, h]

theorem reportBegun_governed (k n sev) (s : State) : governed (reportBegun k n sev s) = governed s :=
  governed_of_reports (reportBegun_reports ..) (Profiles.reportBegun_level ..)
theorem reportEnded_governed (k n) (s : State) : governed (reportEnded k n s) = governed s :=
  governed_of_reports (reportEnded_reports ..) (reportEnded_level ..)
theorem reportEndedIf_governed (b k n) (s : State) : governed (reportEndedIf b k n s) = governed s :=
  governed_of_reports (reportEndedIf_reports ..) (reportEndedIf_level ..)
theorem reportOnce_governed (k n sev) (s : State) : governed (reportOnce k n sev s) = governed s :=
  (reportEnded_governed ..).trans (reportBegun_governed ..)
theorem acknowledge_governed (s : State) : governed (acknowledge s) = governed s :=
  (governed_foldl (f := unfaultArm) (fun _ _ => governed_ite rfl rfl) _ _).trans rfl
theorem weighAck_governed (s : State) : governed (weighAck s) = governed s :=
  governed_ite ((acknowledge_governed _).trans rfl) rfl

/-! ### Signals (02) and the frame path (01) -/

theorem decideStatus_governed (n) (s : State) : governed (decideStatus n s) = governed s := by
  refine governed_ite (reportEndedIf_governed _ _ _ _) ?_
  split
  · exact reportBegun_governed _ _ _ _
  · rfl
  · rfl
theorem revote_governed (n) (s : State) : governed (revote n s) = governed s :=
  governed_ite (decideStatus_governed n s) (decideStatus_governed n s)
theorem recompute_governed (n) (s : State) : governed (recompute n s) = governed s := by
  by_cases h : s.tables.slots[n].vote = .none
  · rw [recompute_none h]
  · rw [recompute_eq h]
    refine governed_ite (governed_ite ?_ ?_) (revote_governed n s)
    · exact (reportBegun_governed _ _ _ _).trans (revote_governed n s)
    · exact (reportEnded_governed _ _ _).trans (revote_governed n s)
theorem refreshSlot_governed (n) (s : State) : governed (refreshSlot n s) = governed s := reportEndedIf_governed _ _ _ _
theorem tokenSlot_governed (n x) (s : State) : governed (tokenSlot n x s) = governed s := governed_ite rfl rfl
theorem freshnessExpired_governed (n) (s : State) : governed (freshnessExpired n s) = governed s :=
  (weighAck_governed _).trans (reportBegun_governed _ _ _ _)
theorem senderExpired_governed (i) (s : State) : governed (senderExpired i s) = governed s := by
  unfold senderExpired; dsimp only; split
  · rfl
  · exact (weighAck_governed _).trans (recompute_governed _ _)
theorem removePlace_governed (i) (s : State) : governed (removePlace i s) = governed s := by
  unfold removePlace; split
  · rfl
  · exact (recompute_governed _ _).trans (reportEnded_governed _ _ _)
theorem removeSenders_governed (p r) (s : State) : governed (removeSenders p r s) = governed s :=
  governed_ite rfl ((governed_foldl (fun s n => recompute_governed n s) _ _).trans (reportEnded_governed _ _ _))
theorem presentSender_governed (q f e n) (s : State) : governed (presentSender q f e n s).2 = governed s := by
  unfold presentSender; split
  · split
    · rfl
    · exact removePlace_governed _ s
  · split
    · rfl
    · exact reportBegun_governed _ _ _ _
theorem applyDirectPick_governed (d) (s : State) (p) : governed (applyDirectPick d s p) = governed s := by
  unfold applyDirectPick; split
  · rfl
  · refine governed_ite ?_ rfl
    split
    · rfl
    · exact tokenSlot_governed _ _ s
theorem applyDirect_governed (e d) (s : State) : governed (applyDirect e d s) = governed s :=
  (weighAck_governed _).trans <|
    (governed_foldl (fun s _ => governed_ite (refreshSlot_governed _ s) rfl) _ _).trans <|
    governed_foldl (applyDirectPick_governed d) _ s
theorem applySender_governed (i e d) (s : State) : governed (applySender i e d s) = governed s := by
  have token (s : State) (p) : governed (applySenderToken i d s p) = governed s := by
    unfold applySenderToken; split <;> rfl
  unfold applySender; split
  · rfl
  · split
    · rfl
    · exact (recompute_governed _ _).trans (governed_foldl token _ _)
theorem forward_governed (q f) (s : State) : governed (forward q f s) = governed s :=
  governed_ite rfl (governed_ite (reportBegun_governed _ _ _ _) (reportEnded_governed _ _ _))
theorem forwardAction_governed (e q f) (s : State) : governed (forwardAction e q f s) = governed s := by
  unfold forwardAction; split
  · exact forward_governed _ _ _
  · exact forward_governed _ _ _
  · rfl
  · rfl
  · split <;> exact forward_governed _ _ _
theorem carryOut_governed (i q f) (s : State) : governed (carryOut i q f s) = governed s := by
  unfold carryOut; dsimp only; split
  · exact (forwardAction_governed _ _ _ _).trans (applyDirect_governed _ _ _)
  · split
    · exact forwardAction_governed _ _ _ _
    · next v _ =>
      have presented := presentSender_governed q f i v.slot s
      split
      · next x heq => rw [heq] at presented; exact presented
      · next j x heq =>
        rw [heq] at presented
        exact (forwardAction_governed _ _ _ _).trans <| (weighAck_governed _).trans <|
          (applySender_governed _ _ _ _).trans presented
theorem framePath_governed (q f) (s : State) : governed (framePath q f s) = governed s := by
  unfold framePath; split
  · exact carryOut_governed _ _ _ _
  · exact governed_ite (forward_governed _ _ _) rfl

/-! ### Sends (09) -/

/-- What the sends leave of a state, as a function of it: they write the channels, the ports and the change mark, they
announce a record, and they refuse a frame with SEND_WINDOW. -/
structure Unsent {β : Type} (φ : State → β) : Prop where
  channel : ∀ ch f s, φ (onChan ch f s) = φ s
  port : ∀ (s : State) q f, φ (s.onPort q f) = φ s
  mark : ∀ s, φ (markFaultChange s) = φ s
  announce : ∀ (s : State) o, φ { s with faults := s.faults.announce o } = φ s
  refuse : ∀ n s, φ (reportOnce .sendWindow n 1 s) = φ s

namespace Unsent
variable {β : Type} {φ : State → β} (h : Unsent φ)
include h

theorem placeChannelFrame (ch n q) (s : State) : φ (placeChannelFrame ch n q s) = φ s := by
  have announced (t) (u : State) : φ (announceTop t u) = φ u := by
    refine field_ite ?_ rfl
    split
    · exact h.announce _ _
    · rfl
  exact (announced _ _).trans ((h.channel ..).trans (h.port ..))
theorem stall (ch n q) (s : State) : φ (stall ch n q s) = φ s := by
  unfold Machine.stall
  exact (h.channel ..).trans (h.port ..)
theorem offerOne (ch) (s : State) : φ (offerOne ch s).2 = φ s := by
  unfold Machine.offerOne; dsimp only; split
  · split
    · rfl
    · split
      · exact h.stall ..
      · exact h.placeChannelFrame ..
  · exact (h.refuse ..).trans (h.channel ..)
theorem offerRun (k ch) (s : State) : φ (offerRun k ch s) = φ s := by
  induction k generalizing s with
  | zero => rfl
  | succ k ih =>
    have offered := h.offerOne ch s
    unfold Machine.offerRun
    split
    · next x heq =>
      rw [heq] at offered
      have stepped : φ (stepPosition ch x) = φ s := (h.channel ..).trans offered
      exact field_ite ((ih _).trans stepped) stepped
    · next x heq => rw [heq] at offered; exact offered
theorem continueSend (ch) (s : State) : φ (continueSend ch s) = φ s :=
  field_ite ((h.offerRun ..).trans (h.channel ..)) (h.channel ..)

section
variable {start : Fin 6 → State → State} (starts : ∀ ch s, φ (start ch s) = φ s)
include starts

theorem triggerWith (ch) (s : State) : φ (triggerWith start ch s) = φ s :=
  field_ite (field_ite ((starts ..).trans (h.channel ..)) (h.channel ..)) rfl
theorem countSend (ch) (s : State) : φ (countSend start ch s) = φ s := by
  have notified (b : Bool) (u : State) : φ (if b then markFaultChange u else u) = φ u := field_ite (h.mark u) rfl
  refine field_ite rfl (field_ite ((notified _ _).trans ?_) (h.channel ..))
  split
  · exact (h.channel ..).trans (h.channel ..)
  · exact (h.triggerWith starts ..).trans ((h.channel ..).trans (h.channel ..))
theorem completeWith (ch) (s : State) : φ (completeWith start ch s) = φ s := by
  have again (u : State) : φ
      (if (u.chan ch).enable && (u.chan ch).pending && (u.chan ch).state == .idle then start ch u else u) = φ u :=
    field_ite (starts ..) rfl
  exact (again _).trans (field_ite (h.channel ..) ((h.countSend starts ..).trans (h.channel ..)))

end

theorem startSend (n ch) (s : State) : φ (startSend n ch s) = φ s := by
  induction n generalizing ch s with
  | zero => rfl
  | succ n ih =>
    have begun : φ (beginSend ch s) = φ s := by unfold beginSend; exact h.channel ..
    have offered : φ (Machine.offerRun (s.chanCfg ch).runLen ch (beginSend ch s)) = φ s := (h.offerRun ..).trans begun
    exact field_ite ((h.completeWith ih ..).trans offered) offered
theorem giveTrigger (ch) (s : State) : φ (giveTrigger ch s) = φ s := h.triggerWith (h.startSend _) ..
theorem completeIfDone (ch) (s : State) : φ (completeIfDone ch s) = φ s :=
  field_ite (h.completeWith (h.startSend _) ..) rfl

end Unsent

theorem governed_unsent : Unsent governed :=
  ⟨fun _ _ _ => rfl, fun _ _ _ => rfl, fun _ => rfl, fun _ _ => rfl, fun _ _ => reportOnce_governed ..⟩

theorem placeChannelFrame_governed (ch n q) (s : State) : governed (placeChannelFrame ch n q s) = governed s :=
  governed_unsent.placeChannelFrame ch n q s
theorem continueSend_governed (ch) (s : State) : governed (continueSend ch s) = governed s :=
  governed_unsent.continueSend ch s
theorem giveTrigger_governed (ch) (s : State) : governed (giveTrigger ch s) = governed s := governed_unsent.giveTrigger ch s
theorem completeIfDone_governed (ch) (s : State) : governed (completeIfDone ch s) = governed s :=
  governed_unsent.completeIfDone ch s

/-! ### Replies and freed places (11, 01) -/

theorem placeReply_governed (s : State) : governed (placeReply s) = governed s := by unfold placeReply; split <;> rfl
theorem countReply_governed (s : State) : governed (countReply s) = governed s := by unfold countReply; split <;> rfl
theorem holdReply_governed (s : State) : governed (holdReply s) = governed s := by unfold holdReply; split <;> rfl
theorem offerReply_governed (s : State) : governed (offerReply s) = governed s :=
  governed_ite rfl <| governed_ite (countReply_governed s) <|
    governed_ite (holdReply_governed s) (placeReply_governed s)
theorem offerReplies_governed (s : State) : governed (offerReplies s) = governed s :=
  governed_ite (offerReply_governed s) ((offerReply_governed _).trans (offerReply_governed s))
theorem makeReply_governed (r) (s : State) : governed (makeReply r s) = governed s :=
  governed_ite rfl (offerReply_governed _)
theorem answer_governed (c t st d) (s : State) : governed (answer c t st d s) = governed s := makeReply_governed _ _
theorem deferredReply_governed (st) (s : State) : governed (deferredReply st s) = governed s := by
  unfold deferredReply; split
  · rfl
  · exact makeReply_governed _ _
theorem recordLeft_governed (s : State) (r) : governed (recordLeft s r) = governed s := by unfold recordLeft; split <;> rfl
theorem restartReplyLeft_governed (q r) (s : State) : governed (restartReplyLeft q r s) = governed s := governed_ite rfl rfl
theorem handPlace_governed (q) (s : State) : governed (handPlace q s) = governed s := by
  refine governed_ite ?_ rfl
  split
  · rfl
  · dsimp only; split
    · exact (continueSend_governed _ _).trans (placeChannelFrame_governed _ _ _ _)
    · exact offerReplies_governed _
theorem releaseHolder_governed (s : State) (h) : governed (releaseHolder s h) = governed s := by
  unfold releaseHolder; split
  · exact continueSend_governed _ _
  · exact (countReply_governed _).trans (countReply_governed _)
theorem sentBody_governed (q r) (s : State) : governed (sentBody q r s) = governed s :=
  (handPlace_governed q _).trans <| (restartReplyLeft_governed _ _ _).trans (recordLeft_governed _ _)

/-! ### Speed capture (03) -/

theorem disagreementTest_governed (s : State) : governed (disagreementTest s) = governed s :=
  governed_ite (governed_ite rfl rfl) (reportEndedIf_governed _ _ _ _)
theorem speedNoneTest_governed (s : State) : governed (speedNoneTest s) = governed s :=
  governed_ite (reportBegun_governed _ _ _ _) (reportEndedIf_governed _ _ _ _)
theorem captureUpdate_governed (s : State) : governed (captureUpdate s) = governed s :=
  (speedNoneTest_governed _).trans (disagreementTest_governed _)
theorem edge_governed (ch d c) (s : State) : governed (edge ch d c s) = governed s := by
  unfold edge; dsimp only; split
  · rfl
  · split
    · rfl
    · exact captureUpdate_governed _
theorem lossExpired_governed (ch) (s : State) : governed (lossExpired ch s) = governed s :=
  (captureUpdate_governed _).trans (reportBegun_governed _ _ _ _)
theorem returnExpired_governed (ch) (s : State) : governed (returnExpired ch s) = governed s :=
  (captureUpdate_governed _).trans (reportEnded_governed _ _ _)
theorem resetCapture_governed (s : State) : governed (resetCapture s) = governed s :=
  (captureUpdate_governed _).trans <| (reportEnded_governed _ _ _).trans <| (reportEnded_governed _ _ _).trans <|
    reportEnded_governed _ _ _

/-! ### Arms (06) -/

theorem closeBanks_governed (c) (s : State) : governed (closeBanks c s) = governed s := governed_ite rfl rfl
theorem leaveQueue_governed (a) (s : State) : governed (leaveQueue a s) = governed s := reportEnded_governed _ _ _
theorem shutdownFreezeArm_governed (l) (s : State) (a) : governed (shutdownFreezeArm l s a) = governed s :=
  governed_ite ((reportEnded_governed _ _ _).trans (reportEnded_governed _ _ _)) rfl
theorem shutdownFreeze_governed (s : State) : governed (shutdownFreeze s) = governed s :=
  governed_foldl (shutdownFreezeArm_governed _) _ s
theorem rejoinArm_governed (s : State) (a) : governed (rejoinArm s a) = governed s := by
  refine governed_ite ?_ rfl
  split <;> rfl
theorem clearObstruction_governed (a) (s : State) : governed (clearObstruction a s) = governed s :=
  governed_ite (reportEnded_governed _ _ _) rfl
theorem tryJoin_governed (a up o) (s : State) : governed (tryJoin a up o s) = governed s := governed_ite rfl rfl
theorem turnUp_governed (a) (s : State) : governed (turnUp a s) = governed s := by
  unfold turnUp; split
  · exact leaveQueue_governed a s
  all_goals exact governed_ite (leaveQueue_governed a s) rfl
theorem turnDown_governed (a) (s : State) : governed (turnDown a s) = governed s := by
  unfold turnDown; split
  · exact leaveQueue_governed a s
  all_goals exact governed_ite (leaveQueue_governed a s) rfl
theorem transition_governed (a) (s : State) : governed (transition a s) = governed s := by
  unfold transition; dsimp only; split
  · exact governed_ite (governed_ite rfl (tryJoin_governed _ _ _ _)) rfl
  · exact governed_ite (tryJoin_governed _ _ _ _) rfl
  · exact governed_ite rfl (turnUp_governed _ _)
  · exact governed_ite (turnDown_governed _ _) rfl
  · exact governed_ite rfl rfl
  · exact governed_ite rfl rfl
  · exact governed_ite rfl (governed_ite rfl rfl)
  · exact governed_ite rfl (governed_ite rfl rfl)
  · exact rejoinArm_governed _ _
  · rfl
theorem armStage_governed (s : State) (a) : governed (armStage s a) = governed s :=
  governed_ite ((transition_governed _ _).trans (clearObstruction_governed a _)) rfl
theorem weighGrant_governed (s : State) : governed (weighGrant s) = governed s := by
  unfold weighGrant; split
  · rfl
  · exact governed_ite (leaveQueue_governed _ s) rfl
theorem banksFollowArms_governed (s : State) : governed (banksFollowArms s) = governed s := closeBanks_governed _ _
theorem armPeriodBody_governed (s : State) : governed (armPeriodBody s) = governed s :=
  (banksFollowArms_governed _).trans <| (governed_foldl (f := commandStage) (fun _ _ => rfl) _ _).trans <|
    (weighGrant_governed _).trans <| governed_foldl armStage_governed _ _
theorem motionExpired_governed (a) (s : State) : governed (motionExpired a s) = governed s :=
  (weighGrant_governed _).trans <| (banksFollowArms_governed _).trans <| reportOnce_governed _ _ _ _
theorem unfitArm_governed (a) (s : State) : governed (unfitArm a s) = governed s :=
  (reportEnded_governed _ _ _).trans <| (reportEnded_governed _ _ _).trans <| leaveQueue_governed a s
theorem actOnFitted_governed (o) (s : State) : governed (actOnFitted o s) = governed s := by
  refine (banksFollowArms_governed _).trans (governed_foldl (fun s a => ?_) _ _)
  split
  · exact unfitArm_governed _ _
  all_goals rfl

/-! ### Doser, cut-off, power (08, 10, 12) -/

theorem lowCheck_governed (s : State) : governed (lowCheck s) = governed s :=
  governed_ite (governed_ite (governed_ite (reportBegun_governed _ _ _ _) rfl)
    (governed_ite (reportEndedIf_governed _ _ _ _) rfl)) rfl
theorem dryCheck_governed (s : State) : governed (dryCheck s) = governed s :=
  governed_ite (reportBegun_governed _ _ _ _) (reportEndedIf_governed _ _ _ _)
theorem sprayBody_governed (s : State) : governed (sprayBody s) = governed s := by
  have tank (u : State) : governed (dryCheck (lowCheck u)) = governed u := (dryCheck_governed _).trans (lowCheck_governed u)
  refine Eq.trans ?_ (tank (onSpray (fun p => { p with timer := msTimer Config.sprayPeriodMs }) s))
  unfold sprayBody
  dsimp only
  generalize dryCheck _ = u
  rfl
theorem weighRelease_governed (s : State) : governed (weighRelease s) = governed s :=
  governed_ite (reportEnded_governed _ _ _) rfl
theorem cutoffActiveBody_governed (s : State) : governed (cutoffActiveBody s) = governed s :=
  governed_ite rfl (reportBegun_governed _ _ _ _)
theorem cutoffInactiveBody_governed (s : State) : governed (cutoffInactiveBody s) = governed s :=
  governed_ite (weighRelease_governed _) rfl
theorem failedStep_governed (p) (s : State) : governed (failedStep p s) = governed s := by
  unfold failedStep; split
  · rfl
  · simp only [failedPage, governed]
theorem losePower_governed (s : State) : governed (losePower s) = governed s := by
  unfold losePower; dsimp only; split
  · exact failedStep_governed _ _
  · rfl
  · rfl
theorem passTime_governed (n) (s : State) : governed (passTime n s) = governed s := rfl
theorem advance_governed (n) (s : State) : governed (advance n s) = governed s := by cases n <;> rfl

/-! ### The table store and the service unit (11, 12) -/

theorem startStore_governed (s : State) : governed (startStore s) = governed s :=
  governed_ite (deferredReply_governed _ _) rfl
theorem storeDone_governed (r) (s : State) : governed (storeDone r s) = governed s :=
  (deferredReply_governed _ _).trans (reportEnded_governed _ _ _)
theorem storeStep_governed (b r) (s : State) : governed (storeStep b r s) = governed s :=
  governed_ite (governed_ite (storeDone_governed _ _) rfl) ((deferredReply_governed _ _).trans (failedStep_governed _ _))
theorem readItem_governed (c i k) (s : State) : governed (readItem c i k s).2.2 = governed s := by
  unfold readItem readKind
  split
  · split
    · split
      · rfl
      · split
        · split <;> rfl
        · rfl
    · rfl
  · rfl
theorem stageItem_governed (o d) (s : State) : governed (stageItem o d s).2 = governed s := by
  unfold stageItem; split <;> rfl
theorem channelControl_governed (c a) (s : State) : governed (channelControl c a s).2 = governed s := by
  unfold channelControl
  split
  case h_3 => exact giveTrigger_governed _ _
  all_goals rfl
theorem restartRequest_governed (c t) (s : State) : governed (restartRequest c t s) = governed s :=
  governed_ite (makeReply_governed _ _) (answer_governed _ _ _ _ _)
theorem dropSenders_governed (slot) (s : State) : governed (dropSenders slot s).2 = governed s := by
  have dropped (p r) : governed (weighAck (removeSenders p r s)) = governed s :=
    (weighAck_governed _).trans (removeSenders_governed p r s)
  unfold dropSenders; split
  · exact dropped _ _
  · split
    · exact dropped _ _
    · rfl
theorem restartInactivity_governed (s : State) : governed (restartInactivity s) = governed s := governed_ite rfl rfl
theorem acceptMatch_governed (i e) (s : State) : governed (acceptMatch i e s).2 = governed s := by
  unfold acceptMatch; split
  · exact (weighAck_governed _).trans (removeSenders_governed _ _ _)
  · rfl
theorem acceptSlot_governed (i c) (s : State) : governed (acceptSlot i c s).2 = governed s := by
  unfold acceptSlot; split
  · exact (weighAck_governed _).trans <| (reportEnded_governed _ _ _).trans <| (reportEnded_governed _ _ _).trans <|
      removeSenders_governed _ _ _
  · rfl

end Sys2Proof.Travel
end

section
/-! SUPPORT. A governor period as a function of the governor record (05 section 5.2): reports change no record, so each
stage acts on it by the inputs of the period alone. -/

namespace Sys2Proof.Travel
open Sys2Proof Sys2Proof.Machine Sys2Proof.Profiles

/-! ## The stages on the governor record -/

/-- A controlled stop begun (05 R70, R85). -/
def stopBegun (i : GovIn) (g : Gov) : Gov :=
  { g with state := .stopping, cruise := none, engineLow := g.engineLow || i.engineLow }

/-- Travel begun in the demanded direction (05 R69). -/
def travelBegun (d : Demand) (g : Gov) : Gov :=
  match d with
  | .forward => { g with state := .forward, dir := 1 }
  | .reverse => { g with state := .reverse, dir := -1 }
  | .neutral => g

/-- Stage 2 (05 R68 to R72). -/
def weighed (i : GovIn) (g : Gov) : Gov :=
  if i.cause then g.held
  else
    match g.state with
    | .neutral => if i.level = 2 then g.held else if i.starts g.lock then travelBegun i.demand g else g.neutral
    | .forward | .reverse => if i.stops then stopBegun i g else g
    | .stopping => g
    | .held => if i.leavesHeld g.lock then g.neutral else g.held

/-- Stage 4 (05 R78 to R84). -/
def computed (i : GovIn) (g : Gov) : Gov := if g.state.computes then compute i g else g

/-- Stage 5 (05 R71, R75). -/
def ended (i : GovIn) (g : Gov) : Gov :=
  if g.v = 0 ∧ i.atRest = true then
    match g.state with
    | .stopping => if 2 ≤ i.level then g.held else g.neutral
    | .forward | .reverse =>
      if (i.demand = .neutral ∨ reversal g.state i.demand = true) ∧ g.cruise = none then g.neutral else g
    | .neutral | .held => g
  else g

/-- The restart lock set (05 R73). -/
def locked (i : GovIn) (g : Gov) : Gov := { g with lock := g.lock || decide (2 ≤ i.level) }

/-- The overspeed limit is exceeded (05 R86). -/
def aboveLimit (i : GovIn) : Bool := decide (i.profile.overspeedLimit < i.absS)

/-- The two watches (05 R85, R86). -/
def watched (i : GovIn) (g : Gov) : Gov :=
  { g with
    engineLow := g.engineLow && i.engineLow
    overspeedMs := if aboveLimit i then min (g.overspeedMs + 10) 500 else 0
    overspeed := aboveLimit i && (g.overspeed || decide (490 ≤ g.overspeedMs)) }

/-- The stages after the state is weighed. -/
def driven (i : GovIn) (g : Gov) : Gov := watched i (ended i (computed i (cruiseStage i g)))

section
variable (i : GovIn) (s : State)

theorem enterNeutral_gov : (enterNeutral s).gov = s.gov.neutral := reportEndedIf_gov _ _ _ _

theorem beginStop_gov : (beginStop i s).gov = stopBegun i s.gov := by
  unfold beginStop stopBegun
  dsimp only
  cases i.engineLow
  · rw [Bool.or_false]; rfl
  · rw [Bool.or_true]; exact (reportBegun_reports ..).gov

theorem startTravel_gov (d) : (startTravel d s).gov = travelBegun d s.gov := by cases d <;> rfl

theorem weighState_gov : (weighState i s).gov = weighed i s.gov := by
  unfold weighState weighed
  cases s.gov.state <;>
    simp only [apply_ite State.gov, enterHeld_gov, enterNeutral_gov, beginStop_gov, startTravel_gov]

theorem endStage_gov : (endStage i s).gov = ended i s.gov := by
  unfold endStage ended
  cases s.gov.state <;> simp only [apply_ite State.gov, enterHeld_gov, enterNeutral_gov]

theorem engineWatch_gov :
    (engineWatch i s).gov = { s.gov with engineLow := s.gov.engineLow && i.engineLow } := by
  unfold engineWatch
  cases low : s.gov.engineLow <;> cases i.engineLow
  case true.false => exact (reportEnded_reports ..).gov
  all_goals exact congrArg (fun b => { s.gov with engineLow := b }) low

theorem overspeedWatch_gov : (overspeedWatch i s).gov = { s.gov with
    overspeedMs := if aboveLimit i then min (s.gov.overspeedMs + 10) 500 else 0
    overspeed := aboveLimit i && (s.gov.overspeed || decide (490 ≤ s.gov.overspeedMs)) } := by
  have full : min (s.gov.overspeedMs + Config.governorPeriodMs) Config.overspeedMs = Config.overspeedMs
      ↔ 490 ≤ s.gov.overspeedMs := by
    unfold Config.governorPeriodMs Config.overspeedMs; omega
  unfold overspeedWatch aboveLimit
  dsimp only
  simp only [onGov_gov, full]
  split
  · next exceeded =>
    rw [decide_eq_true exceeded]
    split
    · next begins =>
      obtain ⟨time, off⟩ := begins
      rw [off, decide_eq_true time]
      exact (reportBegun_reports ..).gov
    · next stays =>
      have same : (s.gov.overspeed || decide (490 ≤ s.gov.overspeedMs)) = s.gov.overspeed := by
        cases off : s.gov.overspeed
        · exact decide_eq_false fun time => stays ⟨time, off⟩
        · rfl
      rw [same]; rfl
  · next within => rw [decide_eq_false within]; exact reportEndedIf_gov _ _ _ _

/-- The stages of a period but the last, the overspeed watch. -/
def beforeWatch : State :=
  let t := onGov (cruiseStage i) (weighState i (lockStage i s))
  engineWatch i (endStage i (if t.gov.state.computes then onGov (compute i) t else t))

theorem governorStages_eq : governorStages i s = overspeedWatch i (beforeWatch i s) := rfl

theorem beforeWatch_gov : (beforeWatch i s).gov =
    let g := ended i (computed i (cruiseStage i (weighed i (locked i s.gov))))
    { g with engineLow := g.engineLow && i.engineLow } := by
  have cruised : (onGov (cruiseStage i) (weighState i (lockStage i s))).gov = cruiseStage i (weighed i (locked i s.gov)) :=
    congrArg (cruiseStage i) (weighState_gov i _)
  have moved (t : State) : (if t.gov.state.computes then onGov (compute i) t else t).gov = computed i t.gov := by
    unfold computed; split <;> rfl
  unfold beforeWatch
  dsimp only
  rw [engineWatch_gov, endStage_gov, moved, cruised]

theorem governorStages_gov : (governorStages i s).gov = driven i (weighed i (locked i s.gov)) := by
  rw [governorStages_eq, overspeedWatch_gov, beforeWatch_gov]
  rfl

end

/-! ## The inputs of a period and the record it begins with -/

section
variable (s : State)

/-- The inputs of a period that begins in a state: those of the moment, under the profile and the motor stroke that the
selector leaves. -/
def periodInputs : GovIn :=
  let profile := s.tables.profiles[(selectorAfter s).active]
  { govInputs s with profile := profile, curve := s.tables.curves[profile.speedCurve]
                     motor := motorToward profile.motor s.gov.motor }

theorem prepared_inputs : govInputs (prepared s) = periodInputs s :=
  congrArg govInputs (prepared_besideTravel s)

/-- Cruise as the selector leaves it: a switch disengages it (04 R61). -/
def cruiseKept : Option Nat :=
  match pendingAfter s.selector.active (s.role .profileRequest) s.selector.pending with
  | some p => if maySwitch s p then none else s.gov.cruise
  | none => s.gov.cruise

/-- The governor record with which the governor's own work begins. -/
def readyGov : Gov :=
  { s.gov with timer := some 10000, motor := (periodInputs s).motor, cruise := cruiseKept s }

theorem selectorStage_gov : (selectorStage s).gov = { s.gov with cruise := cruiseKept s } := by
  unfold selectorStage cruiseKept
  dsimp only
  cases pendingAfter s.selector.active (s.role .profileRequest) s.selector.pending with
  | none => rfl
  | some p =>
    have same (x : Option (Fin 4)) : maySwitch { s with selector.pending := x } p = maySwitch s p := rfl
    simp only [same]
    split <;> rfl

theorem prepared_gov : (prepared s).gov = readyGov s := by
  have motor : (prepared s).gov.motor = (periodInputs s).motor := congrArg (·.gov.motor) (prepared_besideTravel s)
  have selected := selectorStage_gov (onGov (fun g => { g with timer := msTimer Config.governorPeriodMs }) s)
  have rest : (prepared s).gov = { (selectorStage (onGov (fun g =>
      { g with timer := msTimer Config.governorPeriodMs }) s)).gov with motor := (prepared s).gov.motor } := rfl
  rw [rest, selected, motor]
  rfl

theorem governorBody_gov :
    (governorBody s).gov = driven (periodInputs s) (weighed (periodInputs s) (locked (periodInputs s) (readyGov s))) := by
  have body : (governorBody s).gov = (governorStages (govInputs (prepared s)) (prepared s)).gov := rfl
  rw [body, governorStages_gov, prepared_inputs, prepared_gov]

end

/-! Time changes none of them. -/

theorem openedAt_inputs (r : Nat) (s : State) : periodInputs (s.openedAt r) = periodInputs s := by
  have session : (s.openedAt r).service.session = s.service.session := advance_service_session r s
  have hold : (s.openedAt r).shutdown.hold = s.shutdown.hold := advance_shutdown_hold r s
  unfold periodInputs govInputs State.parkEngaged
  dsimp only
  simp only [openedAt_role, openedAt_tables, openedAt_selectorAfter, openedAt_absSpeed, openedAt_level, openedAt_motor,
    session, hold]

theorem openedAt_readyGov (r : Nat) (s : State) : readyGov (s.openedAt r) = readyGov s := by
  have kept : cruiseKept (s.openedAt r) = cruiseKept s := by
    unfold cruiseKept
    rw [openedAt_role]
    cases r <;> rfl
  unfold readyGov
  rw [openedAt_inputs, kept]
  cases r <;> rfl

end Sys2Proof.Travel
end

section
/-! SUPPORT. The governor's invariant (O8) in its parts, and a governor period, which keeps them. -/

namespace Sys2Proof.Travel
open Sys2Proof Sys2Proof.Machine Sys2Proof.Profiles

/-! ## The record agrees with its state -/

/-- The governor record's part of the invariant. -/
structure TravelOk (g : Gov) : Prop where
  rest : g.state = .neutral ∨ g.state = .held → g.dir = 0 ∧ g.v = 0 ∧ g.p = 0 ∧ g.i = 0
  forward : g.state = .forward → g.dir = 1
  reverse : g.state = .reverse → g.dir = -1
  stopping : g.state = .stopping → g.dir = 1 ∨ g.dir = -1
  stroke : ∃ m : Nat, m ≤ 1000 ∧ g.p = g.dir * m
  cruise : g.cruise ≠ none → g.state = .forward

/-- The invariant in its parts. -/
structure GovernorParts (s : State) : Prop where
  caps : ∀ p : Fin 4, (s.tables.profiles[p]).cap ≤ 1000
  travel : TravelOk s.gov
  session : s.service.session = true → s.gov.state = .held
  level : s.faults.level = 3 → s.gov.state = .held
  pending : s.selector.pending ≠ some s.selector.active

theorem governorOk_iff {s : State} : GovernorOk s ↔ GovernorParts s := by
  constructor
  · rintro ⟨caps, rest, forward, reverse, stopping, stroke, cruise, session, level, pending⟩
    exact ⟨caps, ⟨rest, forward, reverse, stopping, stroke, cruise⟩, session, level, pending⟩
  · rintro ⟨caps, ⟨rest, forward, reverse, stopping, stroke, cruise⟩, session, level, pending⟩
    exact ⟨caps, rest, forward, reverse, stopping, stroke, cruise, session, level, pending⟩

/-- The record at rest in a state (05 R68). -/
def Rests (st : GovState) (g : Gov) : Prop :=
  g.state = st ∧ g.dir = 0 ∧ g.v = 0 ∧ g.p = 0 ∧ g.i = 0 ∧ g.mark = .none ∧ g.cruise = none ∧ g.engineLow = false

theorem held_rests (g : Gov) : Rests .held g.held := ⟨rfl, rfl, rfl, rfl, rfl, rfl, rfl, rfl⟩
theorem neutral_rests (g : Gov) : Rests .neutral g.neutral := ⟨rfl, rfl, rfl, rfl, rfl, rfl, rfl, rfl⟩

/-- A record at rest agrees with NEUTRAL and with HELD. -/
theorem Rests.ok {st : GovState} {g : Gov} (h : Rests st g) (at_rest : st = .neutral ∨ st = .held) : TravelOk g := by
  obtain ⟨state, dir, v, p, i, -, cruise, -⟩ := h
  refine ⟨fun _ => ⟨dir, v, p, i⟩, ?_, ?_, ?_, ⟨0, by omega, by simp [p]⟩, fun some => absurd cruise some⟩ <;>
    rcases at_rest with rfl | rfl <;> rw [state] <;> exact nofun

theorem held_ok (g : Gov) : TravelOk g.held := (held_rests g).ok (.inr rfl)
theorem neutral_ok (g : Gov) : TravelOk g.neutral := (neutral_rests g).ok (.inl rfl)

/-- The agreement reads nothing else of the record. -/
theorem TravelOk.of_travelOf {g k : Gov} (h : TravelOk g) (same : travelOf k = travelOf g) : TravelOk k := by
  have field {α : Type} (f : Gov → α) : f (travelOf k) = f (travelOf g) := congrArg f same
  have state : k.state = g.state := field Gov.state
  have dir : k.dir = g.dir := field Gov.dir
  have p : k.p = g.p := field Gov.p
  have v : k.v = g.v := field Gov.v
  have i : k.i = g.i := field Gov.i
  have cruise : k.cruise = g.cruise := field Gov.cruise
  exact ⟨by rw [state, dir, v, p, i]; exact h.rest, by rw [state, dir]; exact h.forward, by rw [state, dir]; exact h.reverse,
    by rw [state, dir]; exact h.stopping, by rw [p, dir]; exact h.stroke, by rw [cruise, state]; exact h.cruise⟩

/-! ## A period keeps the agreement -/

section
variable {i : GovIn} {g : Gov}

theorem locked_ok (h : TravelOk g) : TravelOk (locked i g) := h.of_travelOf rfl

theorem travelBegun_ok (d : Demand) (h : TravelOk g) (neutral : g.state = .neutral) : TravelOk (travelBegun d g) := by
  obtain ⟨-, -, p, -⟩ := h.rest (.inl neutral)
  have off : g.cruise = none := by
    by_contra on
    exact nomatch neutral.symm.trans (h.cruise on)
  cases d with
  | neutral => exact h
  | forward =>
    exact ⟨nofun, fun _ => rfl, nofun, nofun, ⟨0, by omega, by simp [travelBegun, p]⟩, fun _ => rfl⟩
  | reverse =>
    exact ⟨nofun, nofun, fun _ => rfl, nofun, ⟨0, by omega, by simp [travelBegun, p]⟩, fun on => absurd off on⟩

theorem stopBegun_ok (h : TravelOk g) (dir : g.dir = 1 ∨ g.dir = -1) : TravelOk (stopBegun i g) :=
  ⟨nofun, nofun, nofun, fun _ => dir, h.stroke, fun on => absurd rfl on⟩

theorem weighed_ok (h : TravelOk g) : TravelOk (weighed i g) := by
  unfold weighed
  split
  · exact held_ok g
  · cases state : g.state <;> dsimp only
    case neutral =>
      split
      · exact held_ok g
      · split
        · exact travelBegun_ok _ h state
        · exact neutral_ok g
    case forward =>
      split
      · exact stopBegun_ok h (.inl (h.forward state))
      · exact h
    case reverse =>
      split
      · exact stopBegun_ok h (.inr (h.reverse state))
      · exact h
    case stopping => exact h
    case held =>
      split
      · exact neutral_ok g
      · exact held_ok g

theorem cruiseStage_ok (h : TravelOk g) : TravelOk (cruiseStage i g) := by
  refine ⟨h.rest, h.forward, h.reverse, h.stopping, h.stroke, fun on => ?_⟩
  by_contra other
  exact on (if_pos other)

/-- The stroke is the direction's sign times one within the cap (05 R84). -/
theorem clamp_toCap (cap : Nat) (u : Int) : ∃ m : Nat, m ≤ cap ∧ clampInt 0 cap u = m := by
  refine ⟨(clampInt 0 cap u).toNat, ?_, ?_⟩ <;> unfold clampInt <;> split_ifs <;> omega

theorem compute_ok (h : TravelOk g) (cap : i.profile.cap ≤ 1000) (moves : g.state ≠ .neutral ∧ g.state ≠ .held) :
    TravelOk (compute i g) := by
  have never : ¬(g.state = .neutral ∨ g.state = .held) := by tauto
  unfold compute
  dsimp only
  split
  · exact ⟨fun rest => absurd rest never, h.forward, h.reverse, h.stopping, ⟨0, by omega, by simp⟩, h.cruise⟩
  · obtain ⟨m, le, stroke⟩ := clamp_toCap i.profile.cap (i.sum g.state (i.ramp g (i.target g))
      (i.ramp g (i.target g) - i.absS) (i.integral g (i.ramp g (i.target g) - i.absS)))
    exact ⟨fun rest => absurd rest never, h.forward, h.reverse, h.stopping,
      ⟨m, le.trans cap, congrArg (g.dir * ·) stroke⟩, h.cruise⟩

theorem computed_ok (h : TravelOk g) (cap : i.profile.cap ≤ 1000) : TravelOk (computed i g) := by
  unfold computed
  split
  · next moves => exact compute_ok h cap ⟨fun e => by simp [e, GovState.computes] at moves,
      fun e => by simp [e, GovState.computes] at moves⟩
  · exact h

theorem ended_ok (h : TravelOk g) : TravelOk (ended i g) := by
  unfold ended
  split
  · cases g.state <;> dsimp only
    case stopping =>
      split
      · exact held_ok g
      · exact neutral_ok g
    case forward | reverse =>
      split
      · exact neutral_ok g
      · exact h
    case neutral | held => exact h
  · exact h

theorem watched_ok (h : TravelOk g) : TravelOk (watched i g) :=
  ⟨h.rest, h.forward, h.reverse, h.stopping, h.stroke, h.cruise⟩

theorem driven_ok (h : TravelOk g) (cap : i.profile.cap ≤ 1000) : TravelOk (driven i g) :=
  watched_ok (ended_ok (computed_ok (cruiseStage_ok h) cap))

/-- The watches leave a record at rest. -/
theorem watched_rests {st : GovState} (h : Rests st g) : Rests st (watched i g) := by
  obtain ⟨state, dir, v, p, integral, mark, cruise, low⟩ := h
  exact ⟨state, dir, v, p, integral, mark, cruise, by simp [watched, low]⟩

/-- A record at rest stays so for the rest of the period. -/
theorem driven_rests {st : GovState} (h : Rests st g) (at_rest : st = .neutral ∨ st = .held) : Rests st (driven i g) := by
  obtain ⟨state, dir, v, p, integral, mark, -, low⟩ := h
  have off : (cruiseStage i g).cruise = none := if_pos fun e => by rcases at_rest with rfl | rfl <;> cases state.symm.trans e
  have cruised : Rests st (cruiseStage i g) := ⟨state, dir, v, p, integral, mark, off, low⟩
  have stays : ended i (computed i (cruiseStage i g)) = cruiseStage i g := by
    have e : (cruiseStage i g).state = st := state
    unfold ended computed
    rcases at_rest with rfl | rfl <;> simp [e, GovState.computes]
  unfold driven
  rw [stays]
  exact watched_rests cruised

/-- A cause of R68 puts the governor into HELD from any state. -/
theorem period_held (cause : i.cause = true) : Rests .held (driven i (weighed i g)) := by
  unfold weighed
  rw [if_pos cause]
  exact driven_rests (held_rests g) (.inr rfl)

end

/-! ### The selector and cruise before it -/

theorem pendingAfter_ne_active {active : Fin 4} {r : Reading} {pending : Option (Fin 4)} (h : pending ≠ some active) :
    pendingAfter active r pending ≠ some active := by
  unfold pendingAfter
  split
  · exact nofun
  · split
    · split
      · split
        · exact nofun
        · next other => exact fun e => other (Option.some.inj e)
      · exact h
    · exact h

theorem selectorAfter_ok {s : State} (h : s.selector.pending ≠ some s.selector.active) :
    (selectorAfter s).pending ≠ some (selectorAfter s).active := by
  have asked := pendingAfter_ne_active (r := s.role .profileRequest) h
  unfold selectorAfter
  cases e : pendingAfter s.selector.active (s.role .profileRequest) s.selector.pending with
  | none => exact nofun
  | some p =>
    rw [e] at asked
    unfold weighedSelector
    dsimp only
    split
    · exact nofun
    · exact asked

/-- A switch disengages cruise, and leaves it otherwise. -/
theorem cruiseKept_cases (s : State) : cruiseKept s = none ∨ cruiseKept s = s.gov.cruise := by
  unfold cruiseKept
  split
  · split
    · exact .inl rfl
    · exact .inr rfl
  · exact .inr rfl

theorem readyGov_ok {s : State} (h : TravelOk s.gov) : TravelOk (readyGov s) := by
  refine ⟨h.rest, h.forward, h.reverse, h.stopping, h.stroke, fun on => ?_⟩
  rcases cruiseKept_cases s with off | same
  · exact absurd off on
  · exact h.cruise (same ▸ on)

/-- A governor period keeps the invariant: HELD follows from the causes it reads. -/
theorem governorBody_parts {s : State} (h : GovernorParts s) : GovernorParts (governorBody s) := by
  have frame := governorBody_frame s
  have tables : (governorBody s).tables = s.tables := by rw [frame]
  have session : (governorBody s).service = s.service := by rw [frame]
  have cap : (periodInputs s).profile.cap ≤ 1000 := h.caps _
  have held (cause : (periodInputs s).cause = true) : (governorBody s).gov.state = .held := by
    rw [governorBody_gov]; exact (period_held cause).1
  refine ⟨?_, ?_, fun opened => held ?_, fun three => held ?_, ?_⟩
  · rw [tables]; exact h.caps
  · rw [governorBody_gov]; exact driven_ok (weighed_ok (locked_ok (readyGov_ok h.travel))) cap
  · rw [session] at opened; simp [periodInputs, govInputs, opened]
  · rw [governorBody_level] at three; simp [periodInputs, govInputs, three]
  · rw [governorBody_selector]; exact selectorAfter_ok h.pending

end Sys2Proof.Travel
end

section
/-! SUPPORT. The governor's invariant under the publication of a level, restarts, RECALL, COMMIT and the other requests, and
under every step: O8. -/

namespace Sys2Proof.Travel
open Sys2Proof Sys2Proof.Machine Sys2Proof.Signals Sys2Proof.Profiles

/-! ## What keeps the invariant -/

/-- The invariant carries over from a state to a later one. -/
def KeepsGovernor (s t : State) : Prop := GovernorParts s → GovernorParts t

theorem KeepsGovernor.refl (s : State) : KeepsGovernor s s := id
theorem KeepsGovernor.trans {s t u : State} (h : KeepsGovernor s t) (k : KeepsGovernor t u) : KeepsGovernor s u := k ∘ h
theorem KeepsGovernor.ite {s t u : State} {c : Prop} [Decidable c] (h : KeepsGovernor s t) (k : KeepsGovernor s u) :
    KeepsGovernor s (if c then t else u) := by
  split
  · exact h
  · exact k
theorem KeepsGovernor.foldl {α : Type} {f : State → α → State} (h : ∀ s a, KeepsGovernor s (f s a)) (l : List α)
    (s : State) : KeepsGovernor s (l.foldl f s) :=
  foldl_of_step KeepsGovernor KeepsGovernor.refl (fun _ _ _ => KeepsGovernor.trans) f h l s

/-- Profiles within their caps, a session that is not opened, and otherwise nothing that the invariant reads but what others
than the governor change of its record. -/
theorem KeepsGovernor.of_fields {s t : State}
    (caps : GovernorParts s → ∀ p : Fin 4, (t.tables.profiles[p]).cap ≤ 1000)
    (travel : travelOf t.gov = travelOf s.gov) (session : t.service.session = true → s.service.session = true)
    (level : t.faults.level = s.faults.level) (selector : t.selector = s.selector) : KeepsGovernor s t := by
  intro ok
  have state : (travelOf t.gov).state = (travelOf s.gov).state := congrArg Gov.state travel
  have state : t.gov.state = s.gov.state := state
  exact ⟨caps ok, ok.travel.of_travelOf travel, fun opened => state.trans (ok.session (session opened)),
    fun three => state.trans (ok.level (level ▸ three)), selector ▸ ok.pending⟩

/-- The invariant reads nothing else. -/
theorem KeepsGovernor.of_governed {s t : State} (h : governed t = governed s) : KeepsGovernor s t := by
  have profiles : t.tables.profiles = s.tables.profiles := congrArg (·.1) h
  have session : t.service.session = s.service.session := congrArg (·.2.2.2.1) h
  exact .of_fields (fun ok => profiles ▸ ok.caps) (congrArg (·.2.2.1) h) (fun opened => session ▸ opened)
    (congrArg (·.2.2.2.2) h) (congrArg (·.2.1) h)

/-! ## HELD and the response level (05 R68, 10 R161) -/

/-- A record in HELD satisfies all that session and level may ask of it. -/
theorem KeepsGovernor.of_held {s t : State} (tables : t.tables = s.tables) (gov : t.gov.held = t.gov)
    (selector : t.selector = s.selector) : KeepsGovernor s t := by
  intro ok
  have state : t.gov.state = .held := congrArg Gov.state gov.symm
  exact ⟨tables ▸ ok.caps, gov ▸ held_ok t.gov, fun _ => state, fun _ => state, selector ▸ ok.pending⟩

theorem enterHeld_selector (s : State) : (enterHeld s).selector = s.selector := by
  have frame := enterHeld_publishes s
  unfold Publishes at frame
  rw [frame]
theorem enterHeld_idle (s : State) : (enterHeld s).gov.held = (enterHeld s).gov := by rw [enterHeld_gov]; rfl
theorem enterHeld_governor (s : State) : KeepsGovernor s (enterHeld s) :=
  .of_held (enterHeld_tables s) (enterHeld_idle s) (enterHeld_selector s)

theorem publish_governor (l : Fin 4) (s : State) : KeepsGovernor s (publish l s) := by
  have frame := publish_publishes l s
  have tables := frame.ends.tables
  have service := frame.ends.service
  have selector : (publish l s).selector = s.selector := by unfold Publishes at frame; rw [frame]
  have gov := publish_gov l s
  by_cases three : l = 3
  · rw [if_pos three] at gov
    exact .of_held tables (by rw [gov]; rfl) selector
  · rw [if_neg three] at gov
    intro ok
    exact ⟨tables ▸ ok.caps, gov ▸ ok.travel, by rw [service, gov]; exact ok.session,
      fun e => absurd ((publish_level l s).symm.trans e) three, selector ▸ ok.pending⟩
theorem formOnce_governor (s : State) : KeepsGovernor s (formOnce s) := .ite (.refl s) (publish_governor _ s)
theorem formLevel_governor (s : State) : KeepsGovernor s (formLevel s) :=
  (formOnce_governor s).trans (formOnce_governor _)

/-! ## The end of an event -/

theorem completeAll_governor (s : State) : KeepsGovernor s (completeAll s) :=
  (formLevel_governor s).trans <|
    KeepsGovernor.trans (t := ((formLevel s).anyOrder ((allFin 6).filter fun ch => sendComplete ch (formLevel s))).2)
      (.of_governed rfl)
      (.foldl (fun u ch => (KeepsGovernor.of_governed (completeIfDone_governed ch u)).trans (formLevel_governor _)) _ _)
theorem giveTriggers_governor (s : State) : KeepsGovernor s (giveTriggers s) :=
  KeepsGovernor.trans
    (t := { (s.anyOrder ((allFin 6).filter fun ch => s.ev.gives (s.chanCfg ch).source)).2 with ev := s.ev.given })
    (.of_governed rfl)
    (.foldl (fun u ch => (KeepsGovernor.of_governed (giveTrigger_governed ch u)).trans (formLevel_governor _)) _ _)
theorem clearMarks_governor (s : State) : KeepsGovernor s { s with ev := .none } := .of_governed rfl
theorem finish_governor (s : State) : KeepsGovernor s (finish s) := by
  have round (u : State) : KeepsGovernor u (giveTriggers (formLevel u)) :=
    (formLevel_governor u).trans (giveTriggers_governor _)
  unfold finish
  split
  · exact (round s).trans <| (round _).trans <| (round _).trans <| (formLevel_governor _).trans (clearMarks_governor _)
  · exact clearMarks_governor s
theorem event_governor {body : State → State} (h : ∀ s, KeepsGovernor s (body s)) (s : State) :
    KeepsGovernor s (event body s) :=
  (clearMarks_governor s).trans ((h _).trans (finish_governor _))
theorem event_apart {body : State → State} (h : ∀ s, governed (body s) = governed s) (s : State) :
    KeepsGovernor s (event body s) := event_governor (fun s => .of_governed (h s)) s

/-! ## Events that form the level in their bodies, and shutdown -/

theorem frameSentBody_governor (q r) (s : State) : KeepsGovernor s (frameSentBody q r s) :=
  (KeepsGovernor.of_governed (sentBody_governed q r s)).trans (completeAll_governor _)
theorem handedBody_governor (q) (s : State) :
    KeepsGovernor s (completeAll ((handPlace q s).onPort q PortUnit.offerLink)) :=
  KeepsGovernor.trans (t := (handPlace q s).onPort q PortUnit.offerLink) (.of_governed (handPlace_governed q s))
    (completeAll_governor _)
theorem linkLostBody_governor (q) (s : State) : KeepsGovernor s (linkLostBody q s) := by
  have left (u : State) (r) : governed (restartReplyLeft q r (recordLeft u r)) = governed u :=
    (restartReplyLeft_governed q r _).trans (recordLeft_governed u r)
  have emptied : KeepsGovernor s
      (s.onPort q fun p => { p with on := false, queue := [], offered := none, holders := [] }) := .of_governed rfl
  exact emptied.trans <| (KeepsGovernor.of_governed (governed_foldl left _ _)).trans <|
    (KeepsGovernor.of_governed (reportBegun_governed _ _ _ _)).trans <| (formLevel_governor _).trans <|
    (KeepsGovernor.foldl (fun u h => (KeepsGovernor.of_governed (releaseHolder_governed u h)).trans (formLevel_governor _))
      _ _).trans (completeAll_governor _)
theorem startShutdown_governor (s : State) : KeepsGovernor s (startShutdown s) :=
  KeepsGovernor.trans (t := { s with shutdown := { hold := true, timer := msTimer Config.shutdownMs } }) (.of_governed rfl) <|
    (enterHeld_governor _).trans <| (KeepsGovernor.of_governed (shutdownFreeze_governed _)).trans <|
    .of_governed (closeBanks_governed _ _)

/-! ## Loaded tables -/

/-- Tables whose profiles are ones that a COMMIT accepts (04 R56), as far as the cap goes. -/
def CapsOk (t : Tables) : Prop := ∀ p : Fin 4, (t.profiles[p]).cap ≤ 1000

theorem profileDecode_cap {b : List Byte} {x : Profile} (h : Profile.decode b = some x) : x.cap ≤ 1000 := by
  unfold Profile.decode at h
  obtain ⟨_, -, h⟩ := Option.bind_eq_some_iff.1 h
  obtain ⟨_, -, h⟩ := Option.bind_eq_some_iff.1 h
  obtain ⟨_, -, h⟩ := Option.bind_eq_some_iff.1 h
  obtain ⟨cap, range, h⟩ := Option.bind_eq_some_iff.1 h
  have le : cap ≤ 1000 := by
    unfold within at range
    simp only [Option.ite_none_right_eq_some, Option.some.injEq] at range
    omega
  simp only [Option.bind_eq_bind, Option.bind_eq_some_iff, Option.pure_def, Option.some.injEq] at h
  obtain ⟨_, -, _, -, _, -, _, -, _, -, _, -, _, -, _, -, _, -, _, -, _, -, rfl⟩ := h
  exact le

theorem setProfile_ok {t : Tables} (h : CapsOk t) (i : Fin 4) {x : Profile} (k : x.cap ≤ 1000) (p : Fin 4) :
    ((t.profiles.set i x)[p]).cap ≤ 1000 := by
  by_cases e : i = p
  · subst e; simpa using k
  · have ne : i.val ≠ p.val := fun d => e (Fin.ext d)
    simpa [Vector.getElem_set_ne, ne] using h p

theorem replace_capsOk {t u : Tables} {k : Item} {i : Nat} {b : List Byte} (h : CapsOk t)
    (e : t.replace k i b = some u) : CapsOk u := by
  unfold Tables.replace at e
  cases k
  case profile =>
    obtain ⟨x, hx, rfl⟩ := Option.map_eq_some_iff.1 e
    exact setProfile_ok h _ (profileDecode_cap hx)
  case capture | fault | sender => cases e
  all_goals
    obtain ⟨_, -, rfl⟩ := Option.map_eq_some_iff.1 e
    exact h

theorem factory_capsOk : CapsOk Tables.factory := fun p => by simp [Tables.factory, Profile.factory]

theorem build_capsOk (hd : Header) (l : List (Item × Nat × List Byte)) {t u : Tables} (h : CapsOk t)
    (e : hd.build l t = some u) : CapsOk u := by
  induction l generalizing t with
  | nil => cases e; exact h
  | cons r l ih =>
    obtain ⟨t', replaced, built⟩ := Option.bind_eq_some_iff.1 e
    exact ih (replace_capsOk h replaced) built

/-- A loaded image is one that its records build on the factory defaults (12 R179). -/
theorem load_builds {v : Nvm} {sum : BitVec 32} {t : Tables} (e : v.load sum = some t) :
    ∃ (h : Header) (l : List (Item × Nat × List Byte)), h.build l Tables.factory = some t := by
  unfold Nvm.load at e
  split at e
  · cases e
  · cases e
  · next h _ =>
    dsimp only at e
    split at e
    · simp only [Option.bind_eq_bind, Option.bind_eq_some_iff, Option.pure_def] at e
      obtain ⟨records, -, e⟩ := e
      split at e
      · simp only [Option.bind_eq_some_iff, Option.ite_none_right_eq_some, Option.some.injEq] at e
        obtain ⟨u, built, -, rfl⟩ := e
        exact ⟨h, records, built⟩
      · cases e
    · cases e

theorem load_capsOk {v : Nvm} {sum : BitVec 32} {t : Tables} (e : v.load sum = some t) : CapsOk t := by
  obtain ⟨h, l, built⟩ := load_builds e
  exact build_capsOk h l factory_capsOk built

/-! ## Restarts, SLEEP and RECALL -/

/-- A restart holds the governor at rest, closes the session and leaves no profile pending (05 R65, 04 R58). -/
theorem setBlocks_parts (s : State) (h : CapsOk s.tables) : GovernorParts (setBlocks s) :=
  ⟨h, (held_rests (Gov.restarted s.tables.startMotor)).ok (.inr rfl), nofun, fun _ => rfl, nofun⟩

theorem judgeCutoff_governed (s : State) : governed (judgeCutoff s) = governed s :=
  governed_ite (reportBegun_governed _ _ _ _) rfl
theorem judgeStore_governed (s : State) : governed (judgeStore s) = governed s :=
  governed_ite (reportBegun_governed _ _ _ _) rfl
theorem endUnobserved_governed (s : State) : governed (endUnobserved s) = governed s :=
  governed_foldl (fun _ _ => reportEnded_governed _ _ _) _ s

theorem restartBlocks_parts (s : State) (h : CapsOk s.tables) : GovernorParts (restartBlocks s) := by
  have set := setBlocks_parts s h
  unfold restartBlocks
  dsimp only
  generalize setBlocks s = u at set
  have judged : governed (endUnobserved (judgeStore (judgeCutoff (captureUpdate (takeAckReading u))))) = governed u :=
    (endUnobserved_governed _).trans <| (judgeStore_governed _).trans <| (judgeCutoff_governed _).trans <|
      captureUpdate_governed _
  generalize endUnobserved (judgeStore (judgeCutoff (captureUpdate (takeAckReading u)))) = v at judged
  have formed := formLevel_governor v (KeepsGovernor.of_governed judged set)
  have unlocked : KeepsGovernor (formLevel v) { formLevel v with gov.lock := false, ev.armChange := false } :=
    .of_governed rfl
  exact KeepsGovernor.ite (.refl _) (startShutdown_governor _) (unlocked formed)

theorem coldStart_parts (s : State) : GovernorParts (coldStart s) := by
  refine restartBlocks_parts _ ?_
  show CapsOk (s.nvm.loadWhole.getD Tables.factory)
  cases e : s.nvm.loadWhole with
  | none => exact factory_capsOk
  | some t => exact load_capsOk e
theorem warmRestart_governor (c) (s : State) : KeepsGovernor s (warmRestart c s) := fun ok => restartBlocks_parts _ ok.caps
theorem sleepBody_governor (s : State) : KeepsGovernor s (sleepBody s) := .of_governed rfl
theorem restartIfDue_governor (s : State) : KeepsGovernor s (restartIfDue s) :=
  .ite (event_governor (warmRestart_governor _) s) (.refl s)
theorem sleepIfDue_governor (s : State) : KeepsGovernor s (sleepIfDue s) := by
  have slept := event_governor sleepBody_governor s
  exact .ite (.ite (slept.trans (event_governor (warmRestart_governor _) _)) slept) (.refl s)

/-- Tables with profiles within their caps may take the place of others. -/
theorem loaded_governor (t : Tables) (s : State) (h : CapsOk t) : KeepsGovernor s { s with tables := t } :=
  .of_fields (fun _ => h) rfl id rfl rfl

theorem recallSlot_governed (s : State) (n) : governed (recallSlot s n) = governed s :=
  (reportEnded_governed _ _ _).trans (reportEnded_governed _ _ _)
theorem recallSlots_governed (s : State) : governed (recallSlots s) = governed s :=
  governed_foldl recallSlot_governed _ s
theorem recallChannels_governed (s : State) : governed (recallChannels s) = governed s := rfl
theorem replaceTables_governor (t : Tables) (s : State) (h : CapsOk t) : KeepsGovernor s (replaceTables t s) := by
  have loaded := loaded_governor t s h
  unfold replaceTables
  dsimp only
  generalize { s with tables := t } = u at loaded
  exact loaded.trans <| .of_governed <| (weighAck_governed _).trans <| (resetCapture_governed _).trans <|
    (actOnFitted_governed _ _).trans <| (recallChannels_governed _).trans <| (recallSlots_governed _).trans <|
    removeSenders_governed _ _ u
theorem recallDone_governor (sum) (s : State) : KeepsGovernor s (recallDone sum s) := by
  have ended : KeepsGovernor s (endOperation s) := .of_governed rfl
  unfold recallDone
  dsimp only
  generalize endOperation s = u at ended
  split
  · next t loaded =>
    exact ended.trans <| (replaceTables_governor t u (load_capsOk loaded)).trans <|
      .of_governed (deferredReply_governed _ _)
  · exact ended.trans (.of_governed (deferredReply_governed _ _))
theorem startRecall_governor (s : State) : KeepsGovernor s (startRecall s) := by
  unfold startRecall
  split
  · exact .of_governed (deferredReply_governed _ _)
  · exact .ite (recallDone_governor _ s) (.of_governed rfl)
theorem readDone_governor (r) (s : State) : KeepsGovernor s (readDone r s) := .ite (.of_governed rfl) (recallDone_governor _ s)

/-! ## COMMIT and the other requests -/

/-- A COMMIT keeps the invariant if accepting does. -/
theorem commitWith_governor {α : Type} (n index len : Nat) (decode : List Byte → Option α)
    (accept : Fin n → α → State → Judged) (s : State)
    (h : ∀ i x, decode (staged s len) = some x → KeepsGovernor s (accept i x s).2) :
    KeepsGovernor s (commitWith n index len decode accept s).2 := by
  rcases commitWith_cases n index len decode accept s with e | ⟨i, x, hx, e⟩
  · rw [e]; exact .refl s
  · rw [e]; exact h i x hx

/-- Only the COMMIT of PROFILE touches what the invariant reads, and it checks the cap (04 R56). -/
theorem commitItem_governor (code index) (s : State) : KeepsGovernor s (commitItem code index s).2 := by
  unfold commitItem
  split
  case h_1 => exact commitWith_governor _ _ _ _ _ s fun i e _ => .of_governed (acceptMatch_governed i e s)
  case h_2 => exact commitWith_governor _ _ _ _ _ s fun i c _ => .of_governed (acceptSlot_governed i c s)
  case h_3 => exact commitWith_governor _ _ _ _ _ s fun _ _ _ => .of_governed (weighAck_governed _)
  case h_4 =>
    exact commitWith_governor _ _ _ _ _ s fun i _ decoded ok =>
      loaded_governor _ s (setProfile_ok (t := s.tables) ok.caps i (profileDecode_cap decoded)) ok
  case h_6 => exact commitWith_governor _ _ _ _ _ s fun _ _ _ => .of_governed (actOnFitted_governed _ _)
  case h_7 | h_8 =>
    refine commitWith_governor _ _ _ _ _ s fun i x _ => ?_
    dsimp only
    split <;> exact .of_governed rfl
  case h_10 => exact commitWith_governor _ _ _ _ _ s fun _ _ _ => .of_governed (resetCapture_governed _)
  case h_5 | h_9 | h_11 | h_12 => exact commitWith_governor _ _ _ _ _ s fun _ _ _ => .of_governed rfl
  all_goals exact .refl s

/-- The session opens with the governor HELD (11 R169). -/
theorem openSession_governor (s : State) : KeepsGovernor s (openSession s) :=
  .of_held (enterHeld_tables _) (enterHeld_idle _) (enterHeld_selector _)
theorem openConfig_governor (s : State) : KeepsGovernor s (openConfig s).2 := by
  unfold openConfig
  split
  · exact .refl s
  · split
    · exact .refl s
    · split
      · exact .refl s
      · exact openSession_governor s

theorem closeSession_governor (s : State) : KeepsGovernor s (closeSession s) :=
  .of_fields GovernorParts.caps rfl nofun rfl rfl

theorem answerJudged_governor {j : Judged} {s : State} (c t) (h : KeepsGovernor s j.2) :
    KeepsGovernor s (answerJudged c t j) := h.trans (.of_governed (answer_governed _ _ _ _ _))

theorem carryOutRequest_governor (c t d) (s : State) : KeepsGovernor s (carryOutRequest c t d s) := by
  unfold carryOutRequest
  split
  · exact answerJudged_governor _ _ (openConfig_governor s)
  · exact (closeSession_governor s).trans (.of_governed (answer_governed _ _ _ _ _))
  · exact .of_governed ((answer_governed _ _ _ _ _).trans (readItem_governed _ _ _ s))
  · exact answerJudged_governor _ _ (.of_governed (stageItem_governed _ _ s))
  · exact answerJudged_governor _ _ (commitItem_governor _ _ s)
  · exact .of_governed (startStore_governed _)
  · exact KeepsGovernor.trans (t := { s with service.deferred := some (c, t) }) (.of_governed rfl) (startRecall_governor _)
  · split <;> exact .of_governed (answer_governed _ _ _ _ _)
  · exact .of_governed ((answer_governed _ _ _ _ _).trans (acknowledge_governed s))
  · exact answerJudged_governor _ _ (.of_governed (channelControl_governed _ _ s))
  · exact .of_governed (restartRequest_governed _ _ s)
  · exact .of_governed (answer_governed _ _ _ _ _)
  · exact answerJudged_governor _ _ (.of_governed (dropSenders_governed _ s))
  · exact .refl s

theorem serviceRequest_governor (d) (s : State) : KeepsGovernor s (serviceRequest d s) := by
  unfold serviceRequest
  split
  · exact .refl s
  · refine (KeepsGovernor.of_governed (restartInactivity_governed s)).trans (.ite (.refl _) ?_)
    split
    · exact .of_governed (answer_governed _ _ _ _ _)
    · exact carryOutRequest_governor _ _ _ _

/-! ## Every step -/

/-- An answer whose next state keeps the invariant. -/
def AnswerKeepsGovernor (s : State) (a : Answer) : Prop := ∀ t, a = .next t → KeepsGovernor s t

theorem AnswerKeepsGovernor.next {s t : State} (h : KeepsGovernor s t) : AnswerKeepsGovernor s (.next t) := by
  rintro _ ⟨⟩; exact h
theorem AnswerKeepsGovernor.ite {s : State} {a b : Answer} {c : Prop} [Decidable c] (h : AnswerKeepsGovernor s a)
    (k : AnswerKeepsGovernor s b) : AnswerKeepsGovernor s (if c then a else b) := by
  split
  · exact h
  · exact k
theorem AnswerKeepsGovernor.stay (s : State) : AnswerKeepsGovernor s (.next s) := .next (.refl s)

theorem advance_governor (n) (s : State) : KeepsGovernor s (advance n s) := .of_governed (advance_governed n s)

theorem happens_governor {body : State → State} (h : ∀ s, KeepsGovernor s (body s)) (c) (s : State) :
    AnswerKeepsGovernor s (happens c body s) := .ite (.next (event_governor h s)) (.stay s)
theorem expires_governor {body : State → State} (h : ∀ s, KeepsGovernor s (body s)) (t) (s : State) :
    AnswerKeepsGovernor s (expires t body s) := by
  refine .ite ?_ (.stay s)
  split
  · exact .next ((advance_governor _ s).trans (event_governor h _))
  · exact .stay s
theorem operationEvent_governor {body : State → State} (h : ∀ s, KeepsGovernor s (body s)) (t) (s : State) :
    AnswerKeepsGovernor s (operationEvent t body s) := by
  refine .ite ?_ (.stay s)
  split
  · exact .next ((advance_governor _ s).trans ((event_governor h _).trans (sleepIfDue_governor _)))
  · exact .stay s

/-- An event that leaves what the invariant reads. -/
theorem happens_apart {body : State → State} (h : ∀ s, governed (body s) = governed s) (c) (s : State) :
    AnswerKeepsGovernor s (happens c body s) := happens_governor (fun s => .of_governed (h s)) c s
theorem expires_apart {body : State → State} (h : ∀ s, governed (body s) = governed s) (t) (s : State) :
    AnswerKeepsGovernor s (expires t body s) := expires_governor (fun s => .of_governed (h s)) t s

theorem execFrameReceived_governor (q f) (s : State) : AnswerKeepsGovernor s (execFrameReceived q f s) :=
  .ite (happens_governor (fun _ => .ite (serviceRequest_governor _ _) (.of_governed (framePath_governed _ _ _))) _ s)
    fun _ e => nomatch e
theorem request_governor (d) (s : State) : AnswerKeepsGovernor s (request d s) :=
  happens_governor (serviceRequest_governor d) _ s
theorem execFrameSent_governor (q) (s : State) : AnswerKeepsGovernor s (execFrameSent q s) := by
  refine .ite ?_ (.stay s)
  split
  · exact .next ((event_governor (frameSentBody_governor q _) s).trans (restartIfDue_governor _))
  · exact .stay s
theorem execLinkLost_governor (q) (s : State) : AnswerKeepsGovernor s (execLinkLost q s) :=
  .ite (.next ((event_governor (linkLostBody_governor q) s).trans (restartIfDue_governor _))) (.stay s)
theorem execPulseEdge_governor (ch d k) (s : State) : AnswerKeepsGovernor s (execPulseEdge ch d k s) := by
  have late (u : State) : KeepsGovernor u (event (standstillExpired ch) u) :=
    event_apart (body := standstillExpired ch) (fun _ => captureUpdate_governed _) u
  exact .ite (.ite (.next ((advance_governor _ s).trans (.trans (.ite (late _) (.refl _))
    (event_apart (edge_governed ch d k) _)))) (.next (advance_governor _ s))) (.stay s)
theorem execShutdownTimerExpiry_governor (s : State) : AnswerKeepsGovernor s (execShutdownTimerExpiry s) := by
  refine .ite ?_ (.stay s)
  split
  · exact .next ((advance_governor _ s).trans ((event_apart (body := shutdownExpired) (fun _ => rfl) _).trans
      (sleepIfDue_governor _)))
  · exact .stay s
theorem execColdStart_governor (s : State) : AnswerKeepsGovernor s (execColdStart s) :=
  .next fun _ => finish_governor _ (coldStart_parts _)
theorem execWake_governor (s : State) : AnswerKeepsGovernor s (execWake s) :=
  .ite (.next (KeepsGovernor.trans (t := { s with ignLine := true }) (.of_governed rfl)
    (event_governor (warmRestart_governor _) _))) (.next (.of_governed rfl))
theorem execIgnitionShutdown_governor (s : State) : AnswerKeepsGovernor s (execIgnitionShutdown s) :=
  .ite (.ite (.next (KeepsGovernor.trans (t := { s with ignLine := false }) (.of_governed rfl)
    (event_governor startShutdown_governor _))) (.next (.of_governed rfl))) (.stay s)
theorem execStorePageStep_governor (b) (s : State) : AnswerKeepsGovernor s (execStorePageStep b s) := by
  unfold execStorePageStep; split
  · exact operationEvent_governor (fun u => .of_governed (storeStep_governed b _ u)) _ s
  · exact .stay s
theorem execStoreCompletion_governor (s : State) : AnswerKeepsGovernor s (execStoreCompletion s) := by
  unfold execStoreCompletion; split
  · exact .ite (operationEvent_governor (fun u => .of_governed (storeDone_governed _ u)) _ s) (.stay s)
  · exact .stay s
theorem execRecallPageRead_governor (s : State) : AnswerKeepsGovernor s (execRecallPageRead s) := by
  unfold execRecallPageRead; split
  · exact operationEvent_governor (readDone_governor _) _ s
  · exact .stay s
theorem execRecallCompletion_governor (s : State) : AnswerKeepsGovernor s (execRecallCompletion s) := by
  unfold execRecallCompletion; split
  · exact .ite (.stay s) (operationEvent_governor (readDone_governor _) _ s)
  · exact .stay s

/-- Every command keeps the invariant. -/
theorem exec_governor (i : Instr) (s : State) : AnswerKeepsGovernor s (exec i s) := by
  cases i
  case frameReceived q f => exact execFrameReceived_governor q f s
  case frameSent q => exact execFrameSent_governor q s
  case waitingHolderPlaced q => exact happens_governor (handedBody_governor q) _ s
  case linkLost q => exact execLinkLost_governor q s
  case linkRestored q => exact happens_apart (body := linkRestoredBody q) (fun _ => reportEnded_governed _ _ _) _ s
  case pulseEdge ch d k => exact execPulseEdge_governor ch d k s
  case windowTimerExpiry ch => exact expires_apart (body := windowExpired ch) (fun _ => captureUpdate_governed _) _ s
  case standstillTimerExpiry ch =>
    exact expires_apart (body := standstillExpired ch) (fun _ => captureUpdate_governed _) _ s
  case disagreementTimerExpiry =>
    exact expires_apart (body := disagreementExpired) (fun _ => reportBegun_governed _ _ _ _) _ s
  case lossTimerExpiry ch => exact expires_apart (lossExpired_governed ch) _ s
  case returnTimerExpiry ch => exact expires_apart (returnExpired_governed ch) _ s
  case freshnessTimerExpiry n => exact expires_apart (freshnessExpired_governed n) _ s
  case senderTimerExpiry p => exact expires_apart (senderExpired_governed p) _ s
  case silentTimeEnd p => exact expires_apart (fun u => (weighAck_governed _).trans (removePlace_governed p u)) _ s
  case governorPeriod => exact expires_governor (fun _ => governorBody_parts) _ s
  case overspeedTimeLimit => exact happens_apart (body := overspeedBegins) (fun _ => reportBegun_governed _ _ _ _) _ s
  case armPeriod => exact expires_apart armPeriodBody_governed _ s
  case motionTimerExpiry a => exact expires_apart (motionExpired_governed a) _ s
  case floatTimerExpiry a => exact expires_apart (body := floatExpired a) (fun _ => reportBegun_governed _ _ _ _) _ s
  case waitTimerExpiry a => exact expires_apart (body := waitExpired a) (fun _ => reportBegun_governed _ _ _ _) _ s
  case allocatorPeriod => exact expires_apart (body := allocatorBody) (fun _ => rfl) _ s
  case sprayPeriod => exact expires_apart sprayBody_governed _ s
  case lingerEnd => exact happens_apart (body := onSpray endLinger) (fun _ => rfl) _ s
  case intervalTimerExpiry ch => exact expires_apart (body := intervalExpired ch) (fun _ => giveTrigger_governed _ _) _ s
  case sendCompletion ch => exact happens_apart (completeIfDone_governed ch) _ s
  case cutoffActive =>
    exact .ite (.stay s) (.ite (.next (event_apart cutoffActiveBody_governed s)) (.next (.of_governed rfl)))
  case cutoffInactive =>
    exact .ite (.stay s) (.ite (.next (event_apart cutoffInactiveBody_governed s)) (.next (.of_governed rfl)))
  case releaseTimerExpiry => exact expires_apart weighRelease_governed _ s
  case detectionTimeExpiry k n => exact expires_apart (reportEnded_governed k n) _ s
  case ignitionShutdown => exact execIgnitionShutdown_governor s
  case shutdownTimerExpiry => exact execShutdownTimerExpiry_governor s
  case sleepEntry => exact .next (sleepIfDue_governor s)
  case wake => exact execWake_governor s
  case coldStart => exact execColdStart_governor s
  case serviceRestart => exact .next (restartIfDue_governor s)
  case inactivityTimerExpiry => exact expires_governor closeSession_governor _ s
  case storePageStep b => exact execStorePageStep_governor b s
  case storeCompletion => exact execStoreCompletion_governor s
  case recallPageRead => exact execRecallPageRead_governor s
  case recallCompletion => exact execRecallCompletion_governor s
  case powerLoss => exact .ite (.stay s) (.next (.of_governed (losePower_governed s)))
  all_goals exact request_governor _ s

/-- The idle step takes a command that is due, or lets time pass. -/
theorem idle_governor (s : State) : AnswerKeepsGovernor s (idle s) := by
  refine .ite ?_ (.stay s)
  split
  · next i _ =>
    exact fun t e => KeepsGovernor.trans (t := { s with choices := s.choices + 1 }) (.of_governed rfl)
      (exec_governor i _ t e)
  · exact .next (.of_governed (passTime_governed 1 s))

/-- Settles O8: the invariant's parts are kept by every event; those outside the governor leave what it reads, and the
governor's period, a level of 3, an opening session and a restart leave a record that agrees with its state. -/
theorem stepKeepsGovernor : Obligations.StepKeepsGovernor := by
  unfold Obligations.StepKeepsGovernor
  intro s t ok e
  refine governorOk_iff.2 ?_
  have ok := governorOk_iff.1 ok
  unfold step at e
  split at e
  · next i rest _ => exact exec_governor i { s with pending := rest } t e (KeepsGovernor.of_governed (s := s) rfl ok)
  · exact idle_governor s t e ok

end Sys2Proof.Travel
end

section
/-! SUPPORT. What a governor period decides (05 sections 5.3 to 5.6), in the terms of its readings, and O33. -/

namespace Sys2Proof.Travel
open Sys2Proof Sys2Proof.Machine Sys2Proof.Profiles

/-! ## The decisions in the terms of the readings -/

section
variable {i : GovIn}

theorem demand_forward_iff : i.demand = .forward ↔ (i.profile.deadband : Int) < i.pedal := by
  unfold GovIn.demand demandOf
  split_ifs <;> simp_all
theorem demand_reverse_iff : i.demand = .reverse ↔ i.pedal < -(i.profile.deadband : Int) := by
  unfold GovIn.demand demandOf
  split_ifs <;> simp
  all_goals omega
theorem demand_neutral_iff :
    i.demand = .neutral ↔ -(i.profile.deadband : Int) ≤ i.pedal ∧ i.pedal ≤ i.profile.deadband := by
  unfold GovIn.demand demandOf
  split_ifs <;> simp
  all_goals omega

theorem engineLow_iff : i.engineLow = true ↔ i.n < 600 := decide_eq_true_iff
theorem not_engineLow_iff : i.engineLow = false ↔ 600 ≤ i.n := decide_eq_false_iff_not.trans Int.not_lt
theorem atRest_iff : i.atRest = true ↔ i.absS ≤ 30 := decide_eq_true_iff

theorem starts_iff {lock : Bool} : i.starts lock = true ↔
    i.demand ≠ .neutral ∧ i.parkEngaged = false ∧ 600 ≤ i.n ∧ lock = false ∧ i.level ≤ 1 := by
  simp [GovIn.starts, not_engineLow_iff, and_assoc]
theorem stops_iff : i.stops = true ↔ i.level = 2 ∨ i.parkEngaged = true ∨ i.n < 600 := by
  simp [GovIn.stops, engineLow_iff, or_assoc]
theorem leavesHeld_iff {lock : Bool} : i.leavesHeld lock = true ↔
    i.cause = false ∧ i.level ≤ 1 ∧ i.absS ≤ 30 ∧ i.demand = .neutral ∧ lock = false := by
  simp [GovIn.leavesHeld, atRest_iff, and_assoc]
theorem engagesCruise_iff {g : Gov} : i.engagesCruise g = true ↔
    i.cruiseSet.fresh = true ∧ i.cruiseSet.value ≠ 0 ∧ g.rememberedSet = some 0 ∧ i.profile.cruiseAllowed = true
      ∧ i.level = 0 ∧ 300 ≤ g.v ∧ reversal g.state i.demand = false ∧ i.cruiseCancel = 0 := by
  simp [GovIn.engagesCruise, and_assoc]
theorem endsCruise_iff {st : GovState} : i.endsCruise st = true ↔
    i.cruiseCancel ≠ 0 ∨ reversal st i.demand = true ∨ 1 ≤ i.level := by
  simp [GovIn.endsCruise, or_assoc]

end

theorem cause_iff {s : State} : (periodInputs s).cause = true ↔
    s.faults.level = 3 ∨ s.service.session = true ∨ s.shutdown.hold = true := by
  simp [periodInputs, govInputs, or_assoc]
theorem parkReleased_iff {s : State} : (periodInputs s).parkEngaged = false ↔
    (s.role .park).fresh = true ∧ (s.role .park).value = 0 := by
  simp [periodInputs, govInputs, State.parkEngaged]
theorem parkEngaged_iff {s : State} : (periodInputs s).parkEngaged = true ↔
    ¬((s.role .park).fresh = true ∧ (s.role .park).value = 0) := by
  rw [← parkReleased_iff, Bool.not_eq_false]

/-! ## Weighing the state, case by case (05 R68 to R72) -/

section
variable {i : GovIn} {g : Gov} (free : i.cause = false)
include free

theorem weighed_neutral_levelTwo (neutral : g.state = .neutral) (two : i.level = 2) : weighed i g = g.held := by
  simp [weighed, free, neutral, two]
theorem weighed_neutral_starts (neutral : g.state = .neutral) (starts : i.starts g.lock = true) :
    weighed i g = travelBegun i.demand g := by
  have other : i.level ≠ 2 := by
    obtain ⟨-, -, -, -, level⟩ := starts_iff.1 starts
    rintro two
    exact absurd (two ▸ level) (by decide)
  simp [weighed, free, neutral, other, starts]
theorem weighed_neutral_stays (neutral : g.state = .neutral) (other : i.level ≠ 2) (stays : i.starts g.lock = false) :
    weighed i g = g.neutral := by
  simp [weighed, free, neutral, other, stays]
theorem weighed_held_leaves (held : g.state = .held) (leaves : i.leavesHeld g.lock = true) : weighed i g = g.neutral := by
  simp [weighed, free, held, leaves]
theorem weighed_held_stays (held : g.state = .held) (stays : i.leavesHeld g.lock = false) : weighed i g = g.held := by
  simp [weighed, free, held, stays]
theorem weighed_travel_stops (travels : g.state = .forward ∨ g.state = .reverse) (stops : i.stops = true) :
    weighed i g = stopBegun i g := by
  rcases travels with e | e <;> simp [weighed, free, e, stops]
theorem weighed_travel_goes (travels : g.state = .forward ∨ g.state = .reverse) (goes : i.stops = false) :
    weighed i g = g := by
  rcases travels with e | e <;> simp [weighed, free, e, goes]
theorem weighed_stopping (stopping : g.state = .stopping) : weighed i g = g := by
  simp [weighed, free, stopping]

end

/-! ## What the computation leaves -/

section
variable (i : GovIn) (g : Gov)

/-- The computation writes the speed, the stroke, the integral and the mark only. -/
theorem compute_frame : compute i g =
    { g with v := (compute i g).v, p := (compute i g).p, i := (compute i g).i, mark := (compute i g).mark } := by
  unfold compute
  dsimp only
  split <;> rfl

theorem compute_state : (compute i g).state = g.state := by rw [compute_frame]
theorem compute_dir : (compute i g).dir = g.dir := by rw [compute_frame]
theorem compute_cruise : (compute i g).cruise = g.cruise := by rw [compute_frame]
theorem compute_engineLow : (compute i g).engineLow = g.engineLow := by rw [compute_frame]

end

/-- Travel demanded on in its own direction does not end (05 R75). -/
theorem ended_of_demand {i : GovIn} {g : Gov} (travels : g.state = .forward ∨ g.state = .reverse)
    (demanded : i.demand ≠ .neutral) (onward : reversal g.state i.demand = false) : ended i g = g := by
  rcases travels with e | e <;> rw [e] at onward <;> simp [ended, e, demanded, onward]

/-- Travel that begins in the demanded direction lasts over its first period. -/
theorem driven_travelBegun {i : GovIn} {g : Gov} (demanded : i.demand ≠ .neutral) :
    (driven i (travelBegun i.demand g)).state = (travelBegun i.demand g).state
    ∧ (driven i (travelBegun i.demand g)).dir = (travelBegun i.demand g).dir := by
  have travels : (travelBegun i.demand g).state = .forward ∨ (travelBegun i.demand g).state = .reverse := by
    cases e : i.demand with
    | neutral => exact absurd e demanded
    | forward => exact .inl rfl
    | reverse => exact .inr rfl
  have onward : reversal (travelBegun i.demand g).state i.demand = false := by
    cases e : i.demand with
    | neutral => exact absurd e demanded
    | forward | reverse => rfl
  generalize travelBegun i.demand g = b at travels onward
  have computes : computed i (cruiseStage i b) = compute i (cruiseStage i b) := by
    have state : (cruiseStage i b).state = b.state := rfl
    unfold computed
    rcases travels with e | e <;> simp [state, e, GovState.computes]
  have state := compute_state i (cruiseStage i b)
  have stays : ended i (compute i (cruiseStage i b)) = compute i (cruiseStage i b) := by
    refine ended_of_demand ?_ demanded ?_ <;> rw [state] <;> assumption
  unfold driven
  rw [computes, stays]
  exact ⟨state, compute_dir i (cruiseStage i b)⟩

/-! ## A governor period -/

/-- A governor period's state, as far as the travel statements read it. -/
theorem governorPeriod_completes {s : State} {r : Nat} {post : State → Prop} (run : s.power = .running)
    (timer : s.gov.timer = some r)
    (k : ∀ g : Gov, g.motor = (periodInputs s).motor →
      g = driven (periodInputs s) (weighed (periodInputs s) (locked (periodInputs s) (readyGov s))) →
      post { governorBody (s.openedAt r) with selector := selectorAfter s, gov := g }) :
    Completes .governorPeriod s post := by
  have selector : (governorBody (s.openedAt r)).selector = selectorAfter s :=
    (governorBody_selector _).trans (openedAt_selectorAfter r s)
  have motor : (governorBody (s.openedAt r)).gov.motor = (periodInputs s).motor := by
    rw [governorBody_motor]
    simp only [selector, openedAt_tables, openedAt_motor]
    rfl
  have reached := k _ motor (by rw [governorBody_gov, openedAt_inputs, openedAt_readyGov])
  rw [← selector] at reached
  exact .of (expires_of run timer) reached

/-- Settles O33: a cause holds, NEUTRAL and HELD go the way of R69 and R72, and a record at rest stays at rest for the
rest of the period. -/
theorem governorAtRest : Obligations.GovernorAtRest := by
  unfold Obligations.GovernorAtRest
  intro s r run timer
  refine governorPeriod_completes run timer fun _ _ gov => ?_
  subst gov
  set i := periodInputs s
  set g := locked i (readyGov s)
  have restsNeutral (e : weighed i g = g.neutral) : Rests .neutral (driven i (weighed i g)) := by
    rw [e]; exact driven_rests (neutral_rests g) (.inl rfl)
  have restsHeld (e : weighed i g = g.held) : Rests .held (driven i (weighed i g)) := by
    rw [e]; exact driven_rests (held_rests g) (.inr rfl)
  intro pedal dead cause lock park ready leaves rests
  have free (none : ¬cause) : i.cause = false := Bool.eq_false_iff.2 fun c => none (cause_iff.1 c)
  have starts : i.starts g.lock = true ↔ ready ∧ (dead < pedal ∨ pedal < -dead) := by
    have demanded : i.demand ≠ .neutral ↔ dead < pedal ∨ pedal < -dead := by
      rw [Ne, demand_neutral_iff, not_and_or, Int.not_le, Int.not_le, or_comm]; rfl
    rw [starts_iff, demanded, parkReleased_iff, and_comm]
    exact and_congr_left fun _ => and_assoc
  have begins (none : ¬cause) (neutral : s.gov.state = .neutral) (go : ready) (ask : dead < pedal ∨ pedal < -dead) :
      (driven i (weighed i g)).state = (travelBegun i.demand g).state
      ∧ (driven i (weighed i g)).dir = (travelBegun i.demand g).dir := by
    have started := starts.2 ⟨go, ask⟩
    rw [weighed_neutral_starts (g := g) (free none) neutral started]
    exact driven_travelBegun (starts_iff.1 started).1
  refine ⟨fun c => period_held (cause_iff.2 c), fun none neutral => ⟨fun two => ?_, fun go ask => ?_, fun go ask => ?_,
    fun other stay => ?_⟩, fun none held => ⟨fun go => ?_, fun stay => ?_⟩⟩
  · exact restsHeld (weighed_neutral_levelTwo (free none) neutral two)
  · have started := begins none neutral go (.inl ask)
    rwa [demand_forward_iff.2 ask] at started
  · have started := begins none neutral go (.inr ask)
    rwa [demand_reverse_iff.2 ask] at started
  · exact restsNeutral (weighed_neutral_stays (free none) neutral other (Bool.eq_false_iff.2 fun c => stay (starts.1 c)))
  · obtain ⟨level, speed, low, high, unlocked⟩ := go
    exact restsNeutral (weighed_held_leaves (free none) held
      (leavesHeld_iff.2 ⟨free none, level, speed, demand_neutral_iff.2 ⟨low, high⟩, unlocked⟩))
  · refine restsHeld (weighed_held_stays (free none) held (Bool.eq_false_iff.2 fun c => stay ?_))
    obtain ⟨-, level, speed, demand, unlocked⟩ := leavesHeld_iff.1 c
    obtain ⟨low, high⟩ := demand_neutral_iff.1 demand
    exact ⟨level, speed, low, high, unlocked⟩

end Sys2Proof.Travel
end

section
/-! SUPPORT. The computation of a travelling period (05 sections 5.5, 5.6), O34 and O35. -/

namespace Sys2Proof.Travel
open Sys2Proof Sys2Proof.Machine Sys2Proof.Profiles

/-! ## The computation, quantity by quantity -/

section
variable (i : GovIn) (g : Gov)

/-- The commanded speed of a period (05 R81). -/
def rampedSpeed : Nat := i.ramp g (i.target g)

/-- The speed error of a period (05 R83). -/
def speedError : Int := rampedSpeed i g - i.absS

/-- The integral that a period leaves (05 R83). -/
def steppedIntegral : Int := i.integral g (speedError i g)

/-- The sum from which a period derives the stroke (05 R84). -/
def strokeSum : Int := i.sum g.state (rampedSpeed i g) (speedError i g) (steppedIntegral i g)

/-- The computation is at its zero: target and commanded speed are 0. -/
def AtZero : Prop := i.target g = 0 ∧ rampedSpeed i g = 0

theorem compute_v : (compute i g).v = rampedSpeed i g := by
  unfold compute
  dsimp only
  split
  · next zero => exact zero.2.symm
  · rfl

variable {i g}

theorem compute_atZero (zero : AtZero i g) : compute i g = { g with v := 0, p := 0, i := 0, mark := .none } := if_pos zero

theorem compute_moving (moving : ¬AtZero i g) : compute i g =
    { g with v := rampedSpeed i g, i := steppedIntegral i g, mark := outputMark i.profile.cap (strokeSum i g)
             p := g.dir * clampInt 0 i.profile.cap (strokeSum i g) } := if_neg moving

end

/-- The integral's step with the anti-windup as a flag (05 R83, R84). -/
theorem integral_eq (i : GovIn) (g : Gov) (e : Int) : i.integral g e =
    clampInt (-(1000 * (i.imax : Int))) (1000 * i.imax)
      (if (g.mark == .high && decide (0 < e)) || (g.mark == .low && decide (e < 0)) then g.i else g.i + e * i.ki) := by
  simp [GovIn.integral]

/-- At the target the commanded speed stands, which is then the target. -/
theorem rampToward_eq (up down target v : Nat) : rampToward up down target v =
    if v < target then min (v + up) target else if target < v then max (v - down) target else target := by
  unfold rampToward
  split
  · rfl
  · split
    · rfl
    · omega

/-- A reversal demand, in the terms of the pedal (05 R74). -/
theorem reversal_eq {i : GovIn} {st : GovState} (travels : st = .forward ∨ st = .reverse) : reversal st i.demand =
    if st == .forward then decide (i.pedal < -(i.profile.deadband : Int))
    else decide ((i.profile.deadband : Int) < i.pedal) := by
  rw [Bool.eq_iff_iff]
  rcases travels with rfl | rfl
  · change _ ↔ decide _ = true
    rw [decide_eq_true_iff, ← demand_reverse_iff]
    cases i.demand <;> simp [reversal]
  · change _ ↔ decide _ = true
    rw [decide_eq_true_iff, ← demand_forward_iff]
    cases i.demand <;> simp [reversal]

/-! ## The end of a period -/

section
variable {i : GovIn} {g : Gov}

/-- What ends travel (05 R75). -/
def TravelEnds (i : GovIn) (g : Gov) : Prop :=
  g.v = 0 ∧ i.absS ≤ 30 ∧ g.cruise = none ∧ (reversal g.state i.demand = true ∨ i.demand = .neutral)

theorem ended_travel_ends (travels : g.state = .forward ∨ g.state = .reverse) (ends : TravelEnds i g) :
    ended i g = g.neutral := by
  obtain ⟨speed, rest, cruise, why⟩ := ends
  unfold ended
  rw [if_pos ⟨speed, atRest_iff.2 rest⟩]
  rcases travels with e | e <;> rw [e] at why ⊢ <;> exact if_pos ⟨why.symm, cruise⟩

theorem ended_travel_lasts (travels : g.state = .forward ∨ g.state = .reverse) (lasts : ¬TravelEnds i g) :
    ended i g = g := by
  unfold ended
  split
  · next zero =>
    obtain ⟨speed, rest⟩ := zero
    have never : ¬((i.demand = .neutral ∨ reversal g.state i.demand = true) ∧ g.cruise = none) :=
      fun ⟨why, cruise⟩ => lasts ⟨speed, atRest_iff.1 rest, cruise, why.symm⟩
    rcases travels with e | e <;> rw [e] at never ⊢ <;> exact if_neg never
  · rfl

/-- The end of travel finds cruise disengaged. -/
theorem ended_travel_cruise (travels : g.state = .forward ∨ g.state = .reverse) : (ended i g).cruise = g.cruise := by
  by_cases ends : TravelEnds i g
  · have ⟨_, _, cruise, _⟩ := ends
    rw [ended_travel_ends travels ends, cruise]; rfl
  · rw [ended_travel_lasts travels ends]

theorem ended_stop_ends (stopping : g.state = .stopping) (speed : g.v = 0) (rest : i.absS ≤ 30) :
    ended i g = if 2 ≤ i.level then g.held else g.neutral := by
  unfold ended
  rw [if_pos ⟨speed, atRest_iff.2 rest⟩, stopping]

theorem ended_stop_lasts (lasts : ¬(g.v = 0 ∧ i.absS ≤ 30)) : ended i g = g := by
  unfold ended
  rw [if_neg fun ⟨speed, rest⟩ => lasts ⟨speed, atRest_iff.1 rest⟩]

/-- A state that computes ends its period on the computation. -/
theorem driven_computes (computes : g.state.computes = true) :
    driven i g = watched i (ended i (compute i (cruiseStage i g))) := by
  have same : computed i (cruiseStage i g) = compute i (cruiseStage i g) := if_pos computes
  unfold driven
  rw [same]

end

/-! ## Cruise (05 R76, R77) -/

section
variable {i : GovIn} {g : Gov}

theorem cruiseStage_engages (forward : g.state = .forward) (engages : i.engagesCruise g = true) :
    (cruiseStage i g).cruise = some g.v := by
  unfold cruiseStage
  rw [if_neg (not_not_intro forward), if_pos engages]
theorem cruiseStage_disengages (stays : ¬i.engagesCruise g = true) (disengages : i.endsCruise g.state = true) :
    (cruiseStage i g).cruise = none := by
  unfold cruiseStage
  rw [if_neg stays, if_pos disengages]
  exact ite_self _
theorem cruiseStage_keeps (forward : g.state = .forward) (stays : ¬i.engagesCruise g = true)
    (keeps : ¬i.endsCruise g.state = true) : (cruiseStage i g).cruise = g.cruise := by
  unfold cruiseStage
  rw [if_neg (not_not_intro forward), if_neg stays, if_neg keeps]
theorem cruiseStage_other (other : g.state ≠ .forward) : (cruiseStage i g).cruise = none := if_pos other

end

/-- A period takes cruise away exactly when it switches the profile. -/
theorem cruiseKept_eq {s : State} (h : s.selector.pending ≠ some s.selector.active) :
    cruiseKept s = if (selectorAfter s).active = s.selector.active then s.gov.cruise else none := by
  have asked := pendingAfter_ne_active (r := s.role .profileRequest) h
  unfold cruiseKept selectorAfter weighedSelector
  cases e : pendingAfter s.selector.active (s.role .profileRequest) s.selector.pending with
  | none => exact (if_pos rfl).symm
  | some p =>
    rw [e] at asked
    have other : p ≠ s.selector.active := fun same => asked (congrArg some same)
    dsimp only
    by_cases may : maySwitch s p = true
    · simp only [if_pos may, if_neg other]
    · simp only [if_neg may, if_pos]

/-! ## Travel goes on (05 R74 to R84) -/

section
variable {i : GovIn} {g : Gov} (travels : g.state = .forward ∨ g.state = .reverse)
include travels

theorem travel_not_stopping : g.state ≠ .stopping := by rcases travels with e | e <;> rw [e] <;> exact nofun

theorem vfull_travel : i.vfull g.state = i.n.toNat * i.gk / i.motor := by
  unfold GovIn.vfull GovIn.nf
  rw [if_neg (travel_not_stopping travels)]

theorem target_travel : i.target g =
    if reversal g.state i.demand then 0
    else
      let limited := min (match g.cruise with | some c => max c i.requested | none => i.requested)
        (min i.profile.ceiling (i.vfull g.state * i.profile.cap / 1000))
      if i.level = 1 then min limited 1389 else limited := by
  unfold GovIn.target
  simp only [travel_not_stopping travels, false_or]
  rfl

theorem rampedSpeed_travel : rampedSpeed i g = rampToward i.profile.aUp i.profile.aDn (i.target g) g.v :=
  if_neg (travel_not_stopping travels)

end

/-- Settles O34: with nothing that holds or stops, the period is the cruise stage, the computation and the end of travel
on the record it began with. -/
theorem travelIsComputed : Obligations.TravelIsComputed := by
  unfold Obligations.TravelIsComputed
  intro s r run timer travels limit session hold fresh released engine
  refine governorPeriod_completes run timer fun g motor gov => ?_
  set I := periodInputs s
  set b := locked I (readyGov s)
  set c := cruiseStage I b
  have travels' : c.state = .forward ∨ c.state = .reverse := travels
  have moved : (compute I c).state = .forward ∨ (compute I c).state = .reverse := by rwa [compute_state]
  have gov : g = watched I (ended I (compute I c)) := by
    have free : I.cause = false := by
      refine Bool.eq_false_iff.2 fun cause => ?_
      rcases cause_iff.1 cause with level | opened | held
      · exact absurd (level ▸ limit) (by decide)
      · simp [session] at opened
      · simp [hold] at held
    have goes : I.stops = false := by
      refine Bool.eq_false_iff.2 fun stops => ?_
      rcases stops_iff.1 stops with level | parked | low
      · exact absurd (show (2 : Fin 4) ≤ 1 from level ▸ limit) (by decide)
      · exact parkEngaged_iff.1 parked ⟨fresh, released⟩
      · exact absurd engine (Int.not_le.2 low)
    have computes : b.state.computes = true := by
      rcases travels with e | e <;> simp [b, locked, readyGov, e, GovState.computes]
    rw [gov, weighed_travel_goes (g := b) free travels goes, driven_computes computes]
  have cruise : g.cruise = c.cruise := by
    rw [gov]
    exact (ended_travel_cruise moved).trans (compute_cruise I c)
  intro p d pedal forward turns set cancel engages vfull asked wanted limited t v e held integrated top i sum stroke ends
  have turns_eq : turns = reversal c.state I.demand := (reversal_eq (i := I) travels').symm
  have vfull_eq : vfull = I.vfull c.state := by
    rw [vfull_travel travels', ← motor]; rfl
  have wanted_eq : wanted = match c.cruise with | some x => max x I.requested | none => I.requested := by
    rw [← cruise]; rfl
  have t_eq : t = I.target c := by
    rw [target_travel travels', ← turns_eq, ← vfull_eq, ← wanted_eq]; rfl
  have v_eq : v = rampedSpeed I c := by
    rw [rampedSpeed_travel travels', ← t_eq, rampToward_eq]; rfl
  have e_eq : e = speedError I c := by
    unfold speedError; rw [← v_eq]; rfl
  have i_eq : i = steppedIntegral I c := by
    unfold steppedIntegral; rw [integral_eq, ← e_eq]; rfl
  have sum_eq : sum = strokeSum I c := by
    unfold strokeSum GovIn.sum; rw [← v_eq, ← e_eq, ← i_eq, ← vfull_eq]; rfl
  have ends_iff : ends ↔ TravelEnds I (compute I c) := by
    unfold TravelEnds
    rw [compute_v, compute_cruise, compute_state, ← v_eq, ← cruise, ← turns_eq, demand_neutral_iff]
    rfl
  have zero_iff : t = 0 ∧ v = 0 ↔ AtZero I c := by rw [t_eq, v_eq]; rfl
  have engages_iff : I.engagesCruise b = true ↔ engages := by
    rw [engagesCruise_iff]
    exact and_congr_right fun _ => and_congr_right fun _ => and_congr_right fun _ => and_congr_right fun _ =>
      and_congr_right fun _ => and_congr_right fun _ => by rw [turns_eq]; rfl
  have disengages_iff : I.endsCruise c.state = true ↔ cancel ≠ 0 ∨ turns = true ∨ 1 ≤ s.faults.level := by
    rw [endsCruise_iff, turns_eq]; rfl
  have isForward : forward = true ↔ c.state = .forward := beq_iff_eq
  refine ⟨fun f on => ?_, fun f off why => ?_, fun f off keep onward free pending => ?_, fun other => ?_, fun lasts => ?_,
    fun ended => ?_⟩
  · exact cruise.trans (cruiseStage_engages (isForward.1 f) (engages_iff.2 on))
  · exact cruise.trans (cruiseStage_disengages (fun on => off (engages_iff.1 on)) (disengages_iff.2 why))
  · have keeps : ¬I.endsCruise c.state = true := by
      rw [disengages_iff, onward, free]
      rintro (cancelled | turned | level)
      · exact cancelled keep
      · exact nomatch turned
      · exact absurd level (by decide)
    exact cruise.trans ((cruiseStage_keeps (g := b) (isForward.1 f) (fun on => off (engages_iff.1 on)) keeps).trans
      (cruiseKept_eq pending))
  · exact cruise.trans (cruiseStage_other fun f => nomatch other.symm.trans (isForward.2 f))
  · have result : g = watched I (compute I c) := by
      rw [gov, ended_travel_lasts moved fun e => lasts (ends_iff.2 e)]
    refine ⟨?_, ?_, ?_, fun target zero => ?_, fun moving => ?_⟩
    · rw [result]; exact compute_state I c
    · rw [result]; exact compute_dir I c
    · rw [result, v_eq]; exact compute_v I c
    · rw [result, compute_atZero (zero_iff.1 ⟨target, zero⟩)]
      exact ⟨rfl, rfl, rfl⟩
    · rw [result, compute_moving fun zero => moving (zero_iff.2 zero), i_eq, sum_eq]
      refine ⟨rfl, ?_, rfl⟩
      have stroke_eq : stroke = clampInt 0 p.cap (strokeSum I c) := by rw [← sum_eq]; rfl
      rw [stroke_eq]; rfl
  · rw [gov, ended_travel_ends moved (ends_iff.1 ended)]
    exact ⟨rfl, rfl, rfl, rfl, rfl⟩

end Sys2Proof.Travel
end

section
/-! SUPPORT. A controlled stop (05 R70, R71, R85) and O35. -/

namespace Sys2Proof.Travel
open Sys2Proof Sys2Proof.Machine Sys2Proof.Profiles

/-! ## The computation of a stop -/

section
variable {i : GovIn} {g : Gov} (stopping : g.state = .stopping)
include stopping

theorem vfull_stopping : i.vfull g.state = max i.n.toNat 600 * i.gk / i.motor := by
  unfold GovIn.vfull GovIn.nf
  rw [if_pos stopping]; rfl
theorem target_stopping : i.target g = 0 := if_pos (.inl stopping)
theorem rampedSpeed_stopping : rampedSpeed i g = g.v - 40 := if_pos stopping
theorem atZero_stopping : AtZero i g ↔ g.v - 40 = 0 := by
  unfold AtZero
  rw [rampedSpeed_stopping stopping, target_stopping stopping]
  exact and_iff_right rfl

end

/-- A record that a period finds, or leaves, in a controlled stop, against the one the period began with. -/
structure InStop (i : GovIn) (b g : Gov) (low : Prop) : Prop where
  state : g.state = .stopping
  speed : g.v = b.v
  dir : g.dir = b.dir
  integral : g.i = b.i
  mark : g.mark = b.mark
  engineLow : g.engineLow = true ∧ i.n < 600 ↔ i.n < 600 ∧ low

/-- Travel that must stop is in a stop after the weighing, and a stop stays one (05 R70, R71). -/
theorem weighed_inStop {i : GovIn} {b : Gov} (free : i.cause = false)
    (stop : ((b.state = .forward ∨ b.state = .reverse) ∧ i.stops = true) ∨ b.state = .stopping) :
    InStop i b (weighed i b) ((b.state = .forward ∨ b.state = .reverse) ∨ b.engineLow = true) := by
  rcases stop with ⟨travels, stops⟩ | stopping
  · rw [weighed_travel_stops free travels stops]
    refine ⟨rfl, rfl, rfl, rfl, rfl, ?_⟩
    have flag : (stopBegun i b).engineLow = true ↔ b.engineLow = true ∨ i.n < 600 := by
      rw [← engineLow_iff]; exact Bool.or_eq_true_iff
    rw [flag]
    tauto
  · rw [weighed_stopping free stopping]
    refine ⟨stopping, rfl, rfl, rfl, rfl, ?_⟩
    have still : ¬(b.state = .forward ∨ b.state = .reverse) := by
      rw [stopping]; exact (Or.elim · nofun nofun)
    tauto

/-- Settles O35: the weighing leaves a stop, the target of the computation is then 0 and its ramp falls by 40, and the
stop ends on the rule of R71. -/
theorem controlledStop : Obligations.ControlledStop := by
  unfold Obligations.ControlledStop
  intro s r run timer limit session hold n park travels stop
  refine governorPeriod_completes run timer fun g motor gov => ?_
  set I := periodInputs s
  set b := locked I (readyGov s)
  have free : I.cause = false := by
    refine Bool.eq_false_iff.2 fun cause => ?_
    rcases cause_iff.1 cause with level | opened | held
    · exact limit level
    · simp [session] at opened
    · simp [hold] at held
  have stops : I.stops = true ↔ s.faults.level = 2 ∨ ¬(park.fresh = true ∧ park.value = 0) ∨ n < 600 := by
    rw [stops_iff, parkEngaged_iff]; rfl
  have weighs : InStop I b (weighed I b) (travels ∨ s.gov.engineLow = true) :=
    weighed_inStop (b := b) free (stop.imp_left (And.imp_right stops.2))
  set c := cruiseStage I (weighed I b)
  have stopping : c.state = .stopping := weighs.state
  have gov : g = watched I (ended I (compute I c)) := by
    have computes : (weighed I b).state.computes = true := by rw [weighs.state]; rfl
    rw [gov, driven_computes computes]
  have cruise : c.cruise = none := cruiseStage_other (by rw [weighs.state]; exact nofun)
  have speed : c.v = s.gov.v := weighs.speed
  intro p d v vfull e held integrated top i sum stroke ends
  have v_eq : v = rampedSpeed I c := by
    rw [rampedSpeed_stopping stopping, speed]
  have vfull_eq : vfull = I.vfull c.state := by
    rw [vfull_stopping stopping, ← motor]; rfl
  have e_eq : e = speedError I c := by
    unfold speedError; rw [← v_eq]; rfl
  have integral : c.i = s.gov.i := weighs.integral
  have mark : c.mark = s.gov.mark := weighs.mark
  have i_eq : i = steppedIntegral I c := by
    unfold steppedIntegral; rw [integral_eq, ← e_eq, integral, mark]; rfl
  have sum_eq : sum = strokeSum I c := by
    unfold strokeSum GovIn.sum; rw [← v_eq, ← e_eq, ← i_eq, ← vfull_eq]; rfl
  have stroke_eq : stroke = clampInt 0 p.cap (strokeSum I c) := by rw [← sum_eq]; rfl
  have moved : (compute I c).v = v := (compute_v I c).trans v_eq.symm
  have state : (compute I c).state = .stopping := (compute_state I c).trans stopping
  have zero_iff : AtZero I c ↔ v = 0 := by rw [atZero_stopping stopping, speed]
  have lasting (lasts : ¬ends) : g = watched I (compute I c) := by
    rw [gov, ended_stop_lasts fun stop => lasts ⟨moved.symm.trans stop.1, stop.2⟩]
  have ending (stop : ends) : g = watched I (if 2 ≤ I.level then (compute I c).held else (compute I c).neutral) := by
    rw [gov, ended_stop_ends state (moved.trans stop.1) stop.2]
  have rests (stop : ends) : Rests (if 2 ≤ I.level then .held else .neutral) g := by
    rw [ending stop]
    split
    · exact watched_rests (held_rests _)
    · exact watched_rests (neutral_rests _)
  by_cases stop : ends
  · obtain ⟨state, dir, speed, stroke, integral, mark, cruise, low⟩ := rests stop
    exact ⟨speed.trans stop.1.symm, cruise, fun _ => ⟨stroke, integral, mark⟩, fun moving => absurd stop.1 moving,
      fun lasts => absurd stop lasts, fun _ => ⟨state, dir, low⟩⟩
  · rw [lasting stop]
    refine ⟨moved, (compute_cruise I c).trans cruise, fun zero => ?_, fun moving => ?_, fun _ => ⟨state, ?_, ?_⟩,
      fun ends => absurd ends stop⟩
    · rw [compute_atZero (zero_iff.2 zero)]
      exact ⟨rfl, rfl, rfl⟩
    · have dir : c.dir = s.gov.dir := weighs.dir
      rw [compute_moving fun zero => moving (zero_iff.1 zero), stroke_eq, i_eq, ← dir]
      exact ⟨rfl, rfl⟩
    · exact (compute_dir I c).trans weighs.dir
    · have flag : (watched I (compute I c)).engineLow = ((weighed I b).engineLow && I.engineLow) :=
        congrArg (· && I.engineLow) (compute_engineLow I c)
      have both := weighs.engineLow
      rw [← engineLow_iff, ← Bool.and_eq_true, ← flag, engineLow_iff] at both
      exact both

end Sys2Proof.Travel
end

section
/-! SUPPORT. Reports keep the fault list within its rules (10 R156 to R159). -/

namespace Sys2Proof.FaultList
open Sys2Proof Sys2Proof.Machine

/-! ## The rules, part by part -/

/-- The rules of the fault list, on the list alone. -/
structure ListOk (f : Faults) : Prop where
  aggregate : ∀ a, f.aggregate = some a → a.kind = .faultListFull ∧ a.subject = 0
  general : ∀ (i : Fin 15) (r : FaultRec), f.places[i] = some r → r.kind ≠ .faultListFull
  unique : ∀ (i j : Fin 15) (r q : FaultRec), f.places[i] = some r → f.places[j] = some q →
    r.kind = q.kind → r.subject = q.subject → i = j
  merged : ∀ a, f.aggregate = some a → a.merged.Nodup ∧ ∀ k n, (k, n) ∈ a.merged → f.find k n = none
  orders : ∀ r ∈ f.records, r.order < f.nextOrder

theorem faultListOk_iff {s : State} : FaultListOk s ↔ ListOk s.faults :=
  ⟨fun ⟨aggregate, general, unique, merged, orders⟩ => ⟨aggregate, general, unique, merged, orders⟩,
   fun ⟨aggregate, general, unique, merged, orders⟩ => ⟨aggregate, general, unique, merged, orders⟩⟩

section
variable {f g : Faults} {k : Kind} {n : Nat}

theorem mergedHas_iff : f.mergedHas k n = true ↔ ∃ a, f.aggregate = some a ∧ (k, n) ∈ a.merged := by
  unfold Faults.mergedHas
  cases f.aggregate <;> simp

/-- A condition with a record of its own is not merged. -/
theorem ListOk.not_merged (h : ListOk f) {i : Fin 15} {r : FaultRec} (here : f.places[i] = some r) :
    f.mergedHas r.kind r.subject = false := by
  refine Bool.eq_false_iff.2 fun merged => ?_
  obtain ⟨a, ha, mem⟩ := mergedHas_iff.1 merged
  exact find_none_iff.1 ((h.merged a ha).2 _ _ mem) i r here ⟨rfl, rfl⟩

/-- What one place holds after another is written. -/
theorem place_of_set {v : Vector (Option FaultRec) 15} {i j : Fin 15} {o : Option FaultRec} {q : FaultRec}
    (e : (v.set i o)[j] = some q) : (i = j ∧ o = some q) ∨ (i ≠ j ∧ v[j] = some q) := by
  by_cases c : i = j
  · subst c; exact .inl ⟨rfl, by simpa using e⟩
  · have ne : i.val ≠ j.val := fun d => c (Fin.ext d)
    exact .inr ⟨c, by simpa [Vector.getElem_set_ne, ne] using e⟩

/-- A place may be written with a record that no rule forbids there, or emptied. -/
theorem ListOk.setPlace (h : ListOk f) {i : Fin 15} {o : Option FaultRec} (places : g.places = f.places.set i o)
    (aggregate : g.aggregate = f.aggregate) (next : f.nextOrder ≤ g.nextOrder)
    (new : ∀ r, o = some r → r.kind ≠ .faultListFull ∧ r.order < g.nextOrder ∧ f.mergedHas r.kind r.subject = false
      ∧ ∀ (j : Fin 15) (q : FaultRec), i ≠ j → f.places[j] = some q → ¬(q.kind = r.kind ∧ q.subject = r.subject)) :
    ListOk g := by
  have placed {j : Fin 15} {q : FaultRec} (e : g.places[j] = some q) :
      (i = j ∧ o = some q) ∨ (i ≠ j ∧ f.places[j] = some q) := place_of_set (places ▸ e)
  refine ⟨fun a e => h.aggregate a (aggregate ▸ e), fun j q e => ?_, fun j l q r ej el kind subject => ?_,
    fun a e => ⟨(h.merged a (aggregate ▸ e)).1, fun k n mem => find_none_iff.2 fun j q ej => ?_⟩, fun r mem => ?_⟩
  · rcases placed e with ⟨-, here⟩ | ⟨-, there⟩
    · exact (new q here).1
    · exact h.general j q there
  · rcases placed ej with ⟨at_j, here⟩ | ⟨off_j, there⟩ <;> rcases placed el with ⟨at_l, here'⟩ | ⟨off_l, there'⟩
    · exact at_j.symm.trans at_l
    · exact absurd ⟨kind.symm, subject.symm⟩ ((new q here).2.2.2 l r off_l there')
    · exact absurd ⟨kind, subject⟩ ((new r here').2.2.2 j q off_j there)
    · exact h.unique j l q r there there' kind subject
  · have was : f.aggregate = some a := aggregate ▸ e
    rcases placed ej with ⟨-, here⟩ | ⟨-, there⟩
    · rintro ⟨rfl, rfl⟩
      exact Bool.eq_false_iff.1 (new q here).2.2.1 (mergedHas_iff.2 ⟨a, was, mem⟩)
    · exact find_none_iff.1 ((h.merged a was).2 k n mem) j q there
  · rcases mem_records.1 mem with ⟨j, e⟩ | e
    · rcases placed e with ⟨-, here⟩ | ⟨-, there⟩
      · exact (new r here).2.1
      · exact (h.orders r (mem_records.2 (.inl ⟨j, there⟩))).trans_le next
    · exact (h.orders r (mem_records.2 (.inr (aggregate ▸ e)))).trans_le next

/-- A record may be replaced by one of its kind, subject and order, or leave. -/
theorem ListOk.updatePlace (h : ListOk f) {i : Fin 15} {r : FaultRec} (here : f.places[i] = some r) {o : Option FaultRec}
    (same : ∀ q, o = some q → q.kind = r.kind ∧ q.subject = r.subject ∧ q.order = r.order) :
    ListOk { f with places := f.places.set i o } := by
  refine h.setPlace rfl rfl le_rfl fun q e => ?_
  obtain ⟨kind, subject, order⟩ := same q e
  rw [kind, subject, order]
  exact ⟨h.general i r here, h.orders r (mem_records.2 (.inl ⟨i, here⟩)), h.not_merged here,
    fun j p off there ⟨pk, pn⟩ => off (h.unique i j r p here there pk.symm pn.symm)⟩

/-- The aggregate may be written with one that merges conditions without records of their own. -/
theorem ListOk.setAggregate (h : ListOk f) {a : FaultRec} (places : g.places = f.places) (aggregate : g.aggregate = some a)
    (next : f.nextOrder ≤ g.nextOrder) (full : a.kind = .faultListFull ∧ a.subject = 0) (order : a.order < g.nextOrder)
    (nodup : a.merged.Nodup) (apart : ∀ k n, (k, n) ∈ a.merged → f.find k n = none) : ListOk g := by
  have only {b : FaultRec} (e : g.aggregate = some b) : b = a := Option.some.inj (e.symm.trans aggregate)
  have found (k n) : g.find k n = f.find k n := by unfold Faults.find; rw [places]
  refine ⟨fun b e => only e ▸ full, fun i r e => h.general i r (places ▸ e),
    fun i j r q ei ej => h.unique i j r q (places ▸ ei) (places ▸ ej), fun b e => ?_, fun r mem => ?_⟩
  · rw [only e]
    exact ⟨nodup, fun k n mem => (found k n).trans (apart k n mem)⟩
  · rcases mem_records.1 mem with ⟨i, e⟩ | e
    · exact (h.orders r (mem_records.2 (.inl ⟨i, places ▸ e⟩))).trans_le next
    · exact only e ▸ order

end

/-! ## Reports -/

section
variable {k : Kind} {n : Nat} {s : State}

theorem settled_ok (h : ListOk s.faults) : ListOk (s.faults.settled k n) :=
  ⟨h.aggregate, h.general, h.unique, h.merged, h.orders⟩

theorem join_merged (r : FaultRec) (counted sev) : (r.join k n counted sev).merged =
    if r.merged.contains (k, n) then r.merged else r.merged ++ [(k, n)] := rfl

theorem join_merged_nodup {r : FaultRec} (h : r.merged.Nodup) (counted sev) : (r.join k n counted sev).merged.Nodup := by
  rw [join_merged]
  split
  · exact h
  · next new =>
    exact h.append (List.nodup_singleton _) (List.disjoint_singleton.2 fun mem => new (List.contains_iff_mem.2 mem))

theorem mem_join_merged {r : FaultRec} {c : Kind × Nat} {counted sev} (h : c ∈ (r.join k n counted sev).merged) :
    c ∈ r.merged ∨ c = (k, n) := by
  rw [join_merged] at h
  split at h
  · exact .inl h
  · simpa using h

theorem mergeReport_ok (sev counted) (h : ListOk s.faults) (absent : s.faults.find k n = none) :
    ListOk (mergeReport k n sev counted s).faults := by
  unfold mergeReport
  split
  · refine h.setAggregate (a := firstAggregate s k n sev) rfl rfl (Nat.le_succ _) ⟨rfl, rfl⟩ (Nat.lt_succ_self _)
      (List.nodup_singleton _) fun k' n' mem => ?_
    obtain ⟨rfl, rfl⟩ := Prod.mk.inj (List.mem_singleton.1 mem)
    exact absent
  · next a e =>
    rw [markFaultChangeIf_faults]
    obtain ⟨nodup, apart⟩ := h.merged a e
    refine h.setAggregate (a := a.join k n counted sev) rfl rfl le_rfl (h.aggregate a e)
      (h.orders a (mem_records.2 (.inr e))) (join_merged_nodup nodup _ _) fun k' n' mem => ?_
    rcases mem_join_merged mem with old | new
    · exact apart k' n' old
    · obtain ⟨rfl, rfl⟩ := Prod.mk.inj new
      exact absent

theorem placeRecord_ok (i sev) (h : ListOk s.faults) (general : k ≠ .faultListFull) (absent : s.faults.find k n = none)
    (apart : s.faults.mergedHas k n = false) : ListOk (placeRecord i k n sev s).faults := by
  refine h.setPlace (i := i) (o := some (newRecord s k n sev)) rfl rfl (Nat.le_succ _) fun r e => ?_
  obtain rfl := Option.some.inj e
  exact ⟨general, Nat.lt_succ_self _, apart, fun j q _ there => find_none_iff.1 absent j q there⟩

/-- A report of a begin keeps the list within its rules. -/
theorem reportBegun_ok (sev) (general : k ≠ .faultListFull) (h : ListOk s.faults) :
    ListOk (reportBegun k n sev s).faults := by
  have settled : ListOk (s.faults.settled k n) := settled_ok h
  unfold reportBegun
  dsimp only
  split
  · next i found =>
    obtain ⟨r, here, -⟩ := find_some found
    rw [here]
    dsimp only
    rw [markFaultChangeIf_faults]
    refine settled.updatePlace here fun q e => ?_
    obtain rfl := Option.some.inj e
    exact ⟨rfl, rfl, rfl⟩
  · next absent =>
    split
    · exact mergeReport_ok _ _ settled absent
    · next apart =>
      have apart := Bool.eq_false_iff.2 apart
      unfold enterRecord
      split
      · exact placeRecord_ok _ _ settled general absent apart
      · split
        · exact placeRecord_ok _ _ (settled_ok (s := { s with faults := s.faults.settled k n }) settled) general absent apart
        · exact mergeReport_ok _ _ settled absent

/-- A report of an end keeps the list within its rules. -/
theorem reportEnded_ok (k n) (h : ListOk s.faults) : ListOk (reportEnded k n s).faults := by
  have settled : ListOk (s.faults.settled k n) := settled_ok h
  unfold reportEnded
  dsimp only
  split
  · next i found =>
    obtain ⟨r, here, -⟩ := find_some found
    refine settled.updatePlace here fun q e => ?_
    rw [here] at e
    change r.ended = some q at e
    unfold FaultRec.ended at e
    split at e
    · obtain rfl := Option.some.inj e
      exact ⟨rfl, rfl, rfl⟩
    · cases e
  · split
    · next merged =>
      obtain ⟨a, e, -⟩ := mergedHas_iff.1 merged
      obtain ⟨nodup, apart⟩ := settled.merged a e
      exact settled.setAggregate (a := a.without k n) rfl (by rw [e]; rfl) le_rfl (settled.aggregate a e)
        (settled.orders a (mem_records.2 (.inr e))) (nodup.erase _) fun k' n' mem => apart k' n' (List.mem_of_mem_erase mem)
    · exact settled

theorem reportEndedIf_ok (b k n) (h : ListOk s.faults) : ListOk (reportEndedIf b k n s).faults := by
  unfold reportEndedIf
  split
  · exact reportEnded_ok k n h
  · exact h

end

end Sys2Proof.FaultList
end

section
/-! SUPPORT. The overspeed watch (05 R86) and O36. -/

namespace Sys2Proof.Travel
open Sys2Proof Sys2Proof.Machine Sys2Proof.Profiles Sys2Proof.FaultList

/-! ## The stages before it leave its record and the fault list's rules -/

/-- The part of the record that only the overspeed watch writes. -/
def watchOf (g : Gov) : Nat × Bool := (g.overspeedMs, g.overspeed)

section
variable (i : GovIn) (g : Gov)

theorem travelBegun_watch (d : Demand) : watchOf (travelBegun d g) = watchOf g := by cases d <;> rfl

theorem weighed_watch : watchOf (weighed i g) = watchOf g := by
  unfold weighed
  split
  · rfl
  · cases g.state <;> dsimp only
    case neutral =>
      split_ifs
      · rfl
      · exact travelBegun_watch g _
      · rfl
    case forward | reverse | held => split_ifs <;> rfl

theorem computed_watch : watchOf (computed i g) = watchOf g := by
  unfold computed
  split
  · rw [compute_frame]; rfl
  · rfl

theorem ended_watch : watchOf (ended i g) = watchOf g := by
  unfold ended
  cases g.state <;> dsimp only <;> split_ifs <;> rfl

theorem beforeWatch_watch (s : State) : watchOf (beforeWatch i s).gov = watchOf s.gov := by
  rw [beforeWatch_gov]
  exact (ended_watch i _).trans ((computed_watch i _).trans (weighed_watch i (locked i s.gov)))

theorem driven_overspeed : (driven i (weighed i (locked i g))).overspeedMs =
      (if aboveLimit i then min (g.overspeedMs + 10) 500 else 0)
    ∧ (driven i (weighed i (locked i g))).overspeed = (aboveLimit i && (g.overspeed || decide (490 ≤ g.overspeedMs))) := by
  have kept := (ended_watch i _).trans
    ((computed_watch i (cruiseStage i (weighed i (locked i g)))).trans (weighed_watch i (locked i g)))
  obtain ⟨ms, on⟩ := Prod.mk.inj kept
  unfold driven watched
  dsimp only
  rw [ms, on]
  exact ⟨rfl, rfl⟩

end

section
variable {i : GovIn} {s : State}

theorem enterHeld_ok (h : ListOk s.faults) : ListOk (enterHeld s).faults := reportEndedIf_ok _ _ _ h
theorem enterNeutral_ok (h : ListOk s.faults) : ListOk (enterNeutral s).faults := reportEndedIf_ok _ _ _ h

theorem beginStop_ok (h : ListOk s.faults) : ListOk (beginStop i s).faults := by
  unfold beginStop
  dsimp only
  split
  · exact reportBegun_ok _ nofun h
  · exact h

theorem weighState_ok (h : ListOk s.faults) : ListOk (weighState i s).faults := by
  unfold weighState
  split
  · exact enterHeld_ok h
  · cases s.gov.state <;> dsimp only
    case neutral =>
      split_ifs
      · exact enterHeld_ok h
      · exact h
      · exact enterNeutral_ok h
    case forward | reverse =>
      split
      · exact beginStop_ok h
      · exact h
    case stopping => exact h
    case held =>
      split
      · exact enterNeutral_ok h
      · exact enterHeld_ok h

theorem endStage_ok (h : ListOk s.faults) : ListOk (endStage i s).faults := by
  unfold endStage
  split
  · cases s.gov.state <;> dsimp only
    case stopping =>
      split
      · exact enterHeld_ok h
      · exact enterNeutral_ok h
    case forward | reverse =>
      split
      · exact enterNeutral_ok h
      · exact h
    case neutral | held => exact h
  · exact h

theorem engineWatch_ok (h : ListOk s.faults) : ListOk (engineWatch i s).faults := by
  unfold engineWatch
  split
  · exact reportEnded_ok _ _ h
  · exact h

theorem beforeWatch_ok (h : ListOk s.faults) : ListOk (beforeWatch i s).faults := by
  have weighed : ListOk (weighState i (lockStage i s)).faults := weighState_ok h
  refine engineWatch_ok (endStage_ok ?_)
  split <;> exact weighed

/-! ## The watch itself -/

theorem overspeedWatch_begins (above : aboveLimit i = true) (off : s.gov.overspeed = false)
    (full : 490 ≤ s.gov.overspeedMs) : (overspeedWatch i s).faults.holds .overspeed 0 = true := by
  have limit : min (s.gov.overspeedMs + 10) 500 = 500 := by omega
  unfold overspeedWatch
  rw [if_pos (of_decide_eq_true above)]
  dsimp only
  rw [if_pos ⟨limit, off⟩]
  exact reportBegun_holds ..

theorem overspeedWatch_ends (within : aboveLimit i = false) (on : s.gov.overspeed = true) (ok : ListOk s.faults) :
    (overspeedWatch i s).faults.holds .overspeed 0 = false := by
  unfold overspeedWatch
  rw [if_neg (of_decide_eq_false within), on]
  refine (Signals.reportEnded_ends (k := .overspeed) 0 ?_ (by decide)).holds
  exact faultListOk_iff.2 ok

end

section
variable {s : State}

theorem governorBody_faults :
    (governorBody s).faults = (overspeedWatch (periodInputs s) (beforeWatch (periodInputs s) (prepared s))).faults := by
  have body : (governorBody s).faults = (governorStages (govInputs (prepared s)) (prepared s)).faults := rfl
  rw [body, prepared_inputs, governorStages_eq]

theorem selectorStage_faults : (selectorStage s).faults = s.faults := by
  unfold selectorStage
  dsimp only
  split
  · split <;> rfl
  · rfl

theorem prepared_faults : (prepared s).faults = s.faults := selectorStage_faults

theorem watch_before (s : State) : watchOf (beforeWatch (periodInputs s) (prepared s)).gov = watchOf s.gov := by
  rw [beforeWatch_watch, prepared_gov]; rfl

/-- OVERSPEED begins at the period in which the time reaches its limit. -/
theorem governorBody_beginsOverspeed (above : aboveLimit (periodInputs s) = true) (off : s.gov.overspeed = false)
    (full : 490 ≤ s.gov.overspeedMs) : (governorBody s).faults.holds .overspeed 0 = true := by
  obtain ⟨ms, on⟩ := Prod.mk.inj (watch_before s)
  rw [governorBody_faults]
  exact overspeedWatch_begins above (on.trans off) (full.trans_eq ms.symm)

/-- OVERSPEED ends at the first period within the limit. -/
theorem governorBody_endsOverspeed (within : aboveLimit (periodInputs s) = false) (begun : s.gov.overspeed = true)
    (ok : FaultListOk s) : (governorBody s).faults.holds .overspeed 0 = false := by
  obtain ⟨-, on⟩ := Prod.mk.inj (watch_before s)
  rw [governorBody_faults]
  exact overspeedWatch_ends within (on.trans begun) (beforeWatch_ok (by rw [prepared_faults]; exact faultListOk_iff.1 ok))

end

/-- Time does not touch the overspeed watch. -/
theorem openedAt_watch (r : Nat) (s : State) : watchOf (s.openedAt r).gov = watchOf s.gov := by cases r <;> rfl

/-- Settles O36: the watch is the last stage of a period, and the stages before it leave its record and the fault
list's rules. -/
theorem overspeedIsWatched : Obligations.OverspeedIsWatched := by
  unfold Obligations.OverspeedIsWatched
  intro s
  refine ⟨fun r run timer => governorPeriod_completes run timer fun g _ gov => ?_, fun run full off => ?_, fun no => ?_⟩
  · obtain ⟨ms, on⟩ := Prod.mk.inj (openedAt_watch r s)
    obtain ⟨time, begun⟩ := driven_overspeed (periodInputs s) (readyGov s)
    rw [← gov] at time begun
    intro limit above
    have above_iff : aboveLimit (periodInputs s) = true ↔ above := decide_eq_true_iff
    refine ⟨fun exceeds => ?_, fun within => ?_⟩
    · have exceeds := above_iff.2 exceeds
      rw [exceeds] at time begun
      refine ⟨time, begun, fun off full => governorBody_beginsOverspeed ?_ (on.trans off) (full.trans_eq ms.symm)⟩
      rw [openedAt_inputs]; exact exceeds
    · have within := Bool.eq_false_iff.2 fun exceeds => within (above_iff.1 exceeds)
      rw [within] at time begun
      refine ⟨time, begun, fun ok was => governorBody_endsOverspeed ?_ (on.trans was)
        (Signals.openedAt_faultListOk ok r)⟩
      rw [openedAt_inputs]; exact within
  · exact .of (happens_of (body := overspeedBegins) run (by simp [full, off, Config.overspeedMs]))
      ⟨rfl, reportBegun_holds ..⟩
  · refine happens_not (body := overspeedBegins) (no.imp_right ?_)
    rintro (early | begun)
    · simp [Config.overspeedMs, early]
    · simp [begun]

end Sys2Proof.Travel
end

section
/-! SUPPORT. The cut-off (10 R162): the latch publishes level 3, which then stands to the end of the event, and O41. -/

namespace Sys2Proof.Cutoff
open Sys2Proof Sys2Proof.Machine Sys2Proof.Travel

/-! ## The latch under reports and sends -/

/-- The latch of the cut-off and the published level. -/
def alarm (s : State) : Bool × Fin 4 := (s.faults.latch, s.faults.level)

theorem markFaultChangeIf_alarm (b : Bool) (s : State) : alarm (markFaultChangeIf b s) = alarm s := by cases b <;> rfl
theorem mergeReport_alarm (k n sev c) (s : State) : alarm (mergeReport k n sev c s) = alarm s := by
  unfold mergeReport
  split
  · rfl
  · exact markFaultChangeIf_alarm _ _
theorem enterRecord_alarm (k n sev) (s : State) : alarm (enterRecord k n sev s) = alarm s := by
  unfold enterRecord
  split
  · rfl
  · split
    · rfl
    · exact mergeReport_alarm _ _ _ _ s
theorem reportBegun_alarm (k n sev) (s : State) : alarm (reportBegun k n sev s) = alarm s := by
  unfold reportBegun
  dsimp only
  split
  · split
    · exact markFaultChangeIf_alarm _ _
    · rfl
  · exact field_ite (mergeReport_alarm _ _ _ _ _) (enterRecord_alarm _ _ _ _)
theorem reportEnded_alarm (k n) (s : State) : alarm (reportEnded k n s) = alarm s := by
  unfold reportEnded
  dsimp only
  split
  · rfl
  · exact field_ite (φ := alarm) rfl rfl
theorem reportOnce_alarm (k n sev) (s : State) : alarm (reportOnce k n sev s) = alarm s :=
  (reportEnded_alarm ..).trans (reportBegun_alarm ..)
theorem enterHeld_alarm (s : State) : alarm (enterHeld s) = alarm s :=
  field_ite (φ := alarm) (reportEnded_alarm _ _ _) rfl
theorem freezeArm_alarm (order) (s : State) (a) : alarm (freezeArm order s a) = alarm s :=
  field_ite (φ := alarm) (reportEnded_alarm _ _ _) rfl
theorem freezeCircuit_alarm (s : State) : alarm (freezeCircuit s) = alarm s :=
  foldl_field alarm _ (freezeArm_alarm _) _ s
theorem closeBanks_alarm (c) (s : State) : alarm (closeBanks c s) = alarm s := field_ite (φ := alarm) rfl rfl

theorem alarm_unsent : Unsent alarm :=
  ⟨fun _ _ _ => rfl, fun _ _ _ => rfl, fun _ => rfl, fun _ _ => rfl, fun _ _ => reportOnce_alarm ..⟩

/-! ## Level 3 stands under the latch -/

theorem formed_latched {f : Faults} (latch : f.latch = true) : f.formed = 3 := if_pos latch

theorem formOnce_alarmed {s : State} (h : alarm s = (true, 3)) : formOnce s = s := by
  obtain ⟨latch, level⟩ := Prod.mk.inj h
  exact if_pos ((formed_latched latch).trans level.symm)
theorem formLevel_alarmed {s : State} (h : alarm s = (true, 3)) : formLevel s = s := by
  unfold formLevel
  rw [formOnce_alarmed h, formOnce_alarmed h]

theorem giveTriggers_alarmed {s : State} (h : alarm s = (true, 3)) :
    Sends s (giveTriggers s) ∧ alarm (giveTriggers s) = (true, 3) := by
  have fold (l : List (Fin 6)) (u : State) (hu : alarm u = (true, 3)) :
      Sends u (l.foldl (fun u ch => formLevel (giveTrigger ch u)) u)
      ∧ alarm (l.foldl (fun u ch => formLevel (giveTrigger ch u)) u) = (true, 3) := by
    induction l generalizing u with
    | nil => exact ⟨Sends.refl u, hu⟩
    | cons ch l ih =>
      have given : alarm (giveTrigger ch u) = (true, 3) := (alarm_unsent.giveTrigger ch u).trans hu
      rw [List.foldl_cons, formLevel_alarmed given]
      obtain ⟨sends, stays⟩ := ih _ given
      exact ⟨(giveTrigger_sends ch u).trans sends, stays⟩
  let chosen := (s.anyOrder ((allFin 6).filter fun ch => s.ev.gives (s.chanCfg ch).source)).2
  have marks : Sends s { chosen with ev := s.ev.given } := rfl
  obtain ⟨sends, stays⟩ := fold _ { chosen with ev := s.ev.given } h
  exact ⟨marks.trans sends, stays⟩

/-- One round of the end of an event only sends from then on. -/
theorem round_alarmed {s : State} (h : alarm (formLevel s) = (true, 3)) :
    Sends (formLevel s) (formLevel (giveTriggers (formLevel s)))
    ∧ alarm (formLevel (giveTriggers (formLevel s))) = (true, 3) := by
  obtain ⟨sends, stays⟩ := giveTriggers_alarmed h
  rw [formLevel_alarmed stays]
  exact ⟨sends, stays⟩

/-- From a level 3 under the latch the end of an event only sends. -/
theorem finish_alarmed {s : State} (run : s.power = .running) (h : alarm (formLevel s) = (true, 3)) :
    Sends (formLevel s) (finish s) ∧ alarm (finish s) = (true, 3) := by
  have rounds : finish s =
      { formLevel (giveTriggers (formLevel (giveTriggers (formLevel (giveTriggers (formLevel s)))))) with ev := .none } :=
    if_pos run
  obtain ⟨first, h1⟩ := round_alarmed h
  obtain ⟨second, h2⟩ := round_alarmed h1
  obtain ⟨third, h3⟩ := round_alarmed h2
  rw [rounds]
  generalize formLevel (giveTriggers (formLevel (giveTriggers (formLevel (giveTriggers (formLevel s)))))) = t at third h3
  have cleared : Sends t { t with ev := .none } := rfl
  exact ⟨first.trans (second.trans (third.trans cleared)), h3⟩

/-! ## The publication of level 3 -/

/-- The state on which level 3 acts. -/
def atThree (s : State) : State := enterHeld { markFaultChange { s with faults.level := 3 } with gov.lock := true }

theorem publish_three (s : State) : publish 3 s = closeBanks (.all true) (freezeCircuit (atThree s)) := rfl

theorem publish_alarm (s : State) : alarm (publish 3 s) = (s.faults.latch, 3) := by
  rw [publish_three]
  exact (closeBanks_alarm _ _).trans ((freezeCircuit_alarm _).trans (enterHeld_alarm _))

/-- An arm's record after the freeze of the circuit (06 R104). -/
def frozenRec (order : List Arm) (a : Arm) (r : ArmRec) : ArmRec :=
  if r.state.inCircuit then
    { r with state := .frozen, valve := 0, motionT := none, waitT := none, starved := false
             frozenMotion := r.state.motion, origin := frozenOrigin r, frozenRank := order.idxOf a + 1 }
  else r

section
variable (order : List Arm) (s : State) (a : Arm)

theorem freezeArm_arms_same : (freezeArm order s a).arms.get a = frozenRec order a (s.arms.get a) := by
  unfold freezeArm frozenRec
  dsimp only
  split
  · rw [(reportEnded_reports ..).arms]
    exact PerArm.get_set_same ..
  · rfl
theorem freezeArm_arms_other {b : Arm} (other : b ≠ a) : (freezeArm order s a).arms.get b = s.arms.get b := by
  unfold freezeArm
  dsimp only
  split
  · rw [(reportEnded_reports ..).arms]
    exact PerArm.get_set_other _ _ other
  · rfl

theorem freezeCircuit_arms : (freezeCircuit s).arms.get a = frozenRec s.lift.order a (s.arms.get a) := by
  have folded : (freezeCircuit s).arms =
      (freezeArm s.lift.order (freezeArm s.lift.order (freezeArm s.lift.order s .sl) .sr) .mb).arms := rfl
  rw [folded]
  cases a with
  | sl => rw [freezeArm_arms_other _ _ _ (by decide), freezeArm_arms_other _ _ _ (by decide), freezeArm_arms_same]
  | sr =>
    rw [freezeArm_arms_other _ _ _ (by decide), freezeArm_arms_same, freezeArm_arms_other _ _ _ (by decide)]
  | mb =>
    rw [freezeArm_arms_same, freezeArm_arms_other _ _ _ (by decide), freezeArm_arms_other _ _ _ (by decide)]

theorem freezeArm_lift : (freezeArm order s a).lift = s.lift := by
  unfold freezeArm
  dsimp only
  split
  · exact (reportEnded_reports ..).lift
  · rfl
theorem freezeCircuit_lift : (freezeCircuit s).lift = s.lift.emptied :=
  congrArg Lift.emptied (foldl_field State.lift _ (freezeArm_lift s.lift.order) allArms s)

/-- Closing every bank when one is open leaves no flow (08 R132). -/
theorem closeBanks_all (isOpen : (s.spray.banks.get a).isOpen = true) :
    (closeBanks (.all true) s).spray = { s.spray with banks := .all ⟨false, 0⟩, q := 0, duty := 0 } := by
  have some : ((true && s.spray.banks.sl.isOpen) || (true && s.spray.banks.sr.isOpen)
      || (true && s.spray.banks.mb.isOpen)) = true := by
    cases a <;> simp only [PerArm.get] at isOpen <;> simp [isOpen]
  exact congrArg State.spray (if_pos some)

end

section
variable (s : State)

theorem publish_arms (a : Arm) : (publish 3 s).arms.get a = frozenRec s.lift.order a (s.arms.get a) := by
  have lift : (atThree s).lift = s.lift := enterHeld_lift _
  have arms : (atThree s).arms = s.arms := enterHeld_arms _
  rw [publish_three, closeBanks_arms, freezeCircuit_arms, lift, arms]
theorem publish_lift : (publish 3 s).lift = s.lift.emptied := by
  have lift : (atThree s).lift = s.lift := enterHeld_lift _
  rw [publish_three, closeBanks_lift, freezeCircuit_lift, lift]
theorem publish_closes (a : Arm) : ((publish 3 s).spray.banks.get a).isOpen = false := by
  rw [publish_three, closeBanks_isOpen, PerArm.get_all]
  exact Bool.and_false _
theorem publish_stopsSpray {a : Arm} (isOpen : (s.spray.banks.get a).isOpen = true) :
    (publish 3 s).spray = { s.spray with banks := .all ⟨false, 0⟩, q := 0, duty := 0 } := by
  have spray : (freezeCircuit (atThree s)).spray = s.spray := (freezeCircuit_spray _).trans (enterHeld_spray _)
  rw [publish_three, closeBanks_all _ a (by rw [spray]; exact isOpen), spray]

end

/-- A record after the freeze, as R104 says it of waiting and moving arms. -/
theorem frozenRec_eq (order : List Arm) (a : Arm) (x : ArmRec) : frozenRec order a x =
    (let down : Bool := x.state == .waitDown || x.state == .lowering
     let up : Bool := x.state == .waitUp || x.state == .lifting
     let waits : Bool := x.state == .waitDown || x.state == .waitUp
     if down || up then
       { x with state := .frozen, valve := 0, motionT := none, waitT := none, starved := false
                frozenMotion := if down then .down else .up
                origin := if waits then x.origin else .midway
                frozenRank := order.idxOf a + 1 }
     else x) := by
  obtain ⟨state⟩ := x
  cases state <;> rfl

/-- Nothing that commands motion is sent at level 3 (09 R143). -/
theorem sourceValue_three {s : State} (three : s.faults.level = 3) {src : Source} (moves : src.neutralAt3 = true) :
    sourceValue s src = 0 := if_pos ⟨three, moves⟩

/-- Settles O41: the latch publishes level 3 once, and the rest of the event only sends. -/
theorem levelThreeResponse : Obligations.LevelThreeResponse := by
  unfold Obligations.LevelThreeResponse
  intro s run line latch level
  set w := setLatch { s.opened with cutoffLine := true }
  have report : Reports { s.opened with cutoffLine := true, faults.latch := true } w := reportBegun_reports ..
  have running : w.power = .running := report.ends.power.trans run
  obtain ⟨set, below⟩ : w.faults.latch = true ∧ w.faults.level = s.faults.level :=
    Prod.mk.inj (reportBegun_alarm .cutoff 0 3 { s.opened with cutoffLine := true, faults.latch := true })
  have published : alarm (publish 3 w) = (true, 3) := by rw [publish_alarm, set]
  have forms : formLevel w = publish 3 w := by
    have once : formOnce w = publish 3 w := by
      unfold formOnce
      rw [formed_latched set, if_neg fun e => level (e.trans below).symm]
    unfold formLevel
    rw [once, formOnce_alarmed published]
  have alarmed : alarm (formLevel w) = (true, 3) := forms ▸ published
  obtain ⟨sends, stays⟩ := finish_alarmed running alarmed
  rw [forms] at sends
  obtain ⟨latched, three⟩ := Prod.mk.inj stays
  have gov : w.gov = s.gov := report.gov
  have arms : w.arms = s.arms := report.arms
  have lift : w.lift = s.lift := report.lift
  have spray : w.spray = s.spray := report.spray
  refine ⟨finish w, ?_, three, latched, ?_, fun a => ?_, ?_, fun a => ⟨?_, fun isOpen => ?_⟩, ?_,
    fun a => ⟨sourceValue_three three rfl, sourceValue_three three rfl, sourceValue_three three rfl,
      sourceValue_three three rfl, sourceValue_three three rfl, sourceValue_three three rfl⟩⟩
  · have body : cutoffActiveBody s.opened = w := if_neg (by rw [show s.opened.faults.latch = false from latch]; exact nofun)
    change execCutoffActive s = _
    unfold execCutoffActive
    rw [line, if_neg nofun, if_pos run, event_eq, body]
  · rw [sends.gov, publish_gov, if_pos rfl, gov]; rfl
  · rw [sends.arms, publish_arms, arms, lift]; exact frozenRec_eq ..
  · rw [sends.lift, publish_lift, lift]; rfl
  · rw [sends.spray]; exact publish_closes w a
  · rw [← spray] at isOpen
    rw [sends.spray, publish_stopsSpray w isOpen]
    cases a <;> exact ⟨rfl, rfl, rfl⟩
  · rw [sends.spray, publish_volume, spray]

end Sys2Proof.Cutoff
end

section
/-! SUPPORT. The lift circuit's invariant (O9) on what it reads, and the moves an arm can make in it: to rest, to join
the queue, to be granted the circuit. -/

namespace Sys2Proof.LiftCircuit
open Sys2Proof Sys2Proof.Machine

/-! ## What the invariant reads -/

/-- An arm's state as the lift circuit sees it: of the states in which an arm neither waits nor moves it tells STOWED
from the others only. -/
def seat : ArmState → ArmState
  | .init | .working | .float | .frozen | .faulted => .init
  | .stowed => .stowed
  | .waitDown => .waitDown
  | .waitUp => .waitUp
  | .lowering => .lowering
  | .lifting => .lifting

/-- All that the invariant reads: the fitted flags, each arm's seat, whether its motion timer runs, holder and queue. -/
@[ext] structure Circuit where
  fitted : Arm → Bool
  seat : Arm → ArmState
  timed : Arm → Bool
  holder : Option Arm
  queue : List Arm

/-- The lift circuit of a state. -/
def circuit (s : State) : Circuit :=
  { fitted := fun a => (s.armCfg a).fitted
    seat := fun a => seat (s.arms.get a).state
    timed := fun a => (s.arms.get a).motionT.isSome
    holder := s.lift.holder
    queue := s.lift.queue }

/-- The invariant in its parts. -/
structure Circuit.Ok (c : Circuit) : Prop where
  short : c.queue.length ≤ 2
  nodup : c.queue.Nodup
  holder : ∀ a, c.holder = some a ↔ c.seat a = .lowering ∨ c.seat a = .lifting
  queue : ∀ a, a ∈ c.queue ↔ c.seat a = .waitDown ∨ c.seat a = .waitUp
  liftFirst : c.queue.Pairwise fun a b => c.seat b = .waitUp → c.seat a = .waitUp
  timer : ∀ a, c.timed a = true → c.holder = some a
  unfitted : ∀ a, c.fitted a = false → c.seat a = .stowed

section
variable {st : ArmState}
theorem seat_waitDown : seat st = .waitDown ↔ st = .waitDown := by cases st <;> decide
theorem seat_waitUp : seat st = .waitUp ↔ st = .waitUp := by cases st <;> decide
theorem seat_lowering : seat st = .lowering ↔ st = .lowering := by cases st <;> decide
theorem seat_lifting : seat st = .lifting ↔ st = .lifting := by cases st <;> decide
theorem seat_stowed : seat st = .stowed ↔ st = .stowed := by cases st <;> decide
theorem seat_inCircuit : (seat st).inCircuit = st.inCircuit := by cases st <;> rfl
end

theorem liftCircuitOk_iff {s : State} : LiftCircuitOk s ↔ (circuit s).Ok := by
  have timed (a : Arm) : (circuit s).timed a = true ↔ (s.arms.get a).motionT ≠ none := Option.isSome_iff_ne_none
  have moves (a : Arm) : ((circuit s).seat a = .lowering ∨ (circuit s).seat a = .lifting)
      ↔ (s.arms.get a).state = .lowering ∨ (s.arms.get a).state = .lifting := or_congr seat_lowering seat_lifting
  have waits (a : Arm) : ((circuit s).seat a = .waitDown ∨ (circuit s).seat a = .waitUp)
      ↔ (s.arms.get a).state = .waitDown ∨ (s.arms.get a).state = .waitUp := or_congr seat_waitDown seat_waitUp
  constructor
  · rintro ⟨short, nodup, holder, queue, first, timer, unfitted⟩
    exact ⟨short, nodup, fun a => (holder a).trans (moves a).symm, fun a => (queue a).trans (waits a).symm,
      first.imp fun f e => seat_waitUp.2 (f (seat_waitUp.1 e)), fun a t => timer a ((timed a).1 t),
      fun a f => seat_stowed.2 (unfitted a f)⟩
  · rintro ⟨short, nodup, holder, queue, first, timer, unfitted⟩
    exact ⟨short, nodup, fun a => (holder a).trans (moves a), fun a => (queue a).trans (waits a),
      first.imp fun f e => seat_waitUp.1 (f (seat_waitUp.2 e)), fun a t => timer a ((timed a).2 t),
      fun a f => seat_stowed.1 (unfitted a f)⟩

/-! ## The moves -/

namespace Circuit

/-- One arm's seat and motion timer are written. -/
def put (c : Circuit) (a : Arm) (st : ArmState) (t : Bool) : Circuit :=
  { c with seat := Function.update c.seat a st, timed := Function.update c.timed a t }

/-- An arm goes to rest, and with it out of the circuit. -/
def rest (c : Circuit) (a : Arm) (st : ArmState) : Circuit :=
  { c.put a st false with
    holder := if c.holder = some a then none else c.holder
    queue := c.queue.erase a }

/-- One arm's fitted flag is written. -/
def refit (c : Circuit) (a : Arm) (b : Bool) : Circuit := { c with fitted := Function.update c.fitted a b }

theorem rest_seat (c : Circuit) (a : Arm) (st : ArmState) : (c.rest a st).seat a = st := Function.update_self ..

namespace Ok
variable {c : Circuit} (ok : c.Ok) {a : Arm}
include ok

theorem not_mem (out : (c.seat a).inCircuit = false) : a ∉ c.queue := fun mem => by
  rcases (ok.queue a).1 mem with e | e <;> rw [e] at out <;> exact nomatch out
theorem not_holder (out : (c.seat a).inCircuit = false) : c.holder ≠ some a := fun e => by
  rcases (ok.holder a).1 e with e | e <;> rw [e] at out <;> exact nomatch out
/-- A waiting arm does not hold the circuit. -/
theorem not_holder_of_mem (mem : a ∈ c.queue) : c.holder ≠ some a := fun e => by
  rcases (ok.queue a).1 mem with w | w <;> rcases (ok.holder a).1 e with m | m <;> exact nomatch w.symm.trans m
theorem not_timed (other : c.holder ≠ some a) : c.timed a = false :=
  Bool.eq_false_iff.2 fun t => other (ok.timer a t)
theorem fitted_of_seat (other : c.seat a ≠ .stowed) : c.fitted a = true :=
  Bool.not_eq_false _ ▸ fun e => other (ok.unfitted a e)

/-- An arm outside the circuit that goes to rest changes its own seat only. -/
theorem rest_of_out (out : (c.seat a).inCircuit = false) (st : ArmState) : c.rest a st = c.put a st (c.timed a) := by
  have free := ok.not_holder out
  unfold rest
  rw [if_neg free, List.erase_of_not_mem (ok.not_mem out), ok.not_timed free]
  rfl

/-- An arm may go to rest from anywhere. -/
theorem rest {st : ArmState} (resting : st.inCircuit = false) (fit : c.fitted a = false → st = .stowed) :
    (c.rest a st).Ok := by
  have seat_other {b : Arm} (h : b ≠ a) : (c.rest a st).seat b = c.seat b := Function.update_of_ne h ..
  have seat_same := rest_seat c a st
  have holder_iff (b : Arm) : (c.rest a st).holder = some b ↔ b ≠ a ∧ c.holder = some b := by
    show (if c.holder = some a then none else c.holder) = some b ↔ _
    split
    · next h => rw [h]; simp only [reduceCtorEq, Option.some.injEq, false_iff, not_and]; exact fun ne e => ne e.symm
    · next h => exact ⟨fun e => ⟨fun same => h (same ▸ e), e⟩, And.right⟩
  have mem_iff (b : Arm) : b ∈ (c.rest a st).queue ↔ b ≠ a ∧ b ∈ c.queue := ok.nodup.mem_erase_iff
  refine ⟨(List.length_erase_le ..).trans ok.short, ok.nodup.erase a, fun b => ?_, fun b => ?_, ?_, fun b t => ?_,
    fun b h => ?_⟩
  · rw [holder_iff]
    by_cases e : b = a
    · subst e
      rw [seat_same]
      cases st <;> simp_all [ArmState.inCircuit]
    · rw [seat_other e]; simp only [ne_eq, e, not_false_eq_true, true_and]; exact ok.holder b
  · rw [mem_iff]
    by_cases e : b = a
    · subst e
      rw [seat_same]
      cases st <;> simp_all [ArmState.inCircuit]
    · rw [seat_other e]; simp only [ne_eq, e, not_false_eq_true, true_and]; exact ok.queue b
  · refine (ok.liftFirst.sublist List.erase_sublist).imp_of_mem fun {x y} hx hy first => ?_
    rwa [seat_other ((mem_iff x).1 hx).1, seat_other ((mem_iff y).1 hy).1]
  · rw [holder_iff]
    by_cases e : b = a
    · subst e; exact nomatch (Function.update_self ..).symm.trans t
    · exact ⟨e, ok.timer b ((Function.update_of_ne e ..).symm.trans t)⟩
  · by_cases e : b = a
    · subst e; rw [seat_same]; exact fit h
    · rw [seat_other e]; exact ok.unfitted b h

/-- A fitted arm outside the circuit may join a queue that has a place: to lift behind those that wait to lift, to lower
behind all. -/
theorem enqueue (fit : c.fitted a = true) (out : (c.seat a).inCircuit = false) (room : c.queue.length < 2) {up : Bool}
    {l₁ l₂ : List Arm} (split : c.queue = l₁ ++ l₂) (ups : up = true → ∀ x ∈ l₁, c.seat x = .waitUp)
    (last : up = false → l₂ = []) :
    ({ c.put a (if up then .waitUp else .waitDown) (c.timed a) with queue := l₁ ++ a :: l₂ } : Circuit).Ok := by
  have new := ok.not_mem out
  have free := ok.not_holder out
  have seat_other {b : Arm} (h : b ≠ a) {st : ArmState} : Function.update c.seat a st b = c.seat b :=
    Function.update_of_ne h ..
  have others {x : Arm} (h : x ∈ c.queue) : x ≠ a := fun e => new (e ▸ h)
  have perm : (l₁ ++ a :: l₂).Perm (a :: c.queue) := split ▸ List.perm_middle
  refine ⟨perm.length_eq ▸ Nat.succ_le_of_lt room, perm.nodup_iff.2 (List.nodup_cons.2 ⟨new, ok.nodup⟩), fun b => ?_,
    fun b => ?_, ?_, fun b t => ?_, fun b h => ?_⟩
  · by_cases e : b = a
    · subst e
      simp only [put, Function.update_self, free, false_iff]
      cases up <;> simp
    · simp only [put, seat_other e]; exact ok.holder b
  · rw [perm.mem_iff, List.mem_cons]
    by_cases e : b = a
    · subst e
      simp only [put, Function.update_self, true_or, true_iff]
      cases up <;> simp
    · simp only [put, seat_other e, e, false_or]; exact ok.queue b
  · have kept : (l₁ ++ l₂).Pairwise fun x y =>
        Function.update c.seat a (if up then .waitUp else .waitDown) y = .waitUp →
        Function.update c.seat a (if up then .waitUp else .waitDown) x = .waitUp := by
      refine (split ▸ ok.liftFirst).imp_of_mem fun {x y} hx hy first => ?_
      rwa [seat_other (others (split ▸ hy)), seat_other (others (split ▸ hx))]
    obtain ⟨first, second, between⟩ := List.pairwise_append.1 kept
    refine List.pairwise_append.2 ⟨first, List.pairwise_cons.2 ⟨fun y hy => ?_, second⟩, fun x hx y hy => ?_⟩
    · cases up with
      | true => exact fun _ => Function.update_self ..
      | false => rw [last rfl] at hy; exact nomatch hy
    · rcases List.mem_cons.1 hy with rfl | hy
      · cases up with
        | true =>
          have x_mem : x ∈ c.queue := split ▸ List.mem_append_left _ hx
          exact fun _ => (seat_other (others x_mem)).trans (ups rfl x hx)
        | false => exact fun e => nomatch (Function.update_self ..).symm.trans e
      · exact between x hx y hy
  · refine ok.timer b ?_
    by_cases e : b = a
    · subst e; exact (Function.update_self ..).symm.trans t
    · exact (Function.update_of_ne e ..).symm.trans t
  · by_cases e : b = a
    · subst e; exact nomatch fit.symm.trans h
    · simp only [put, seat_other e]; exact ok.unfitted b h

/-- A fitted arm outside the circuit may be granted a free circuit. -/
theorem grant (fit : c.fitted a = true) (out : (c.seat a).inCircuit = false) (free : c.holder = none) (up : Bool) :
    ({ c.put a (if up then .lifting else .lowering) true with holder := some a } : Circuit).Ok := by
  have new := ok.not_mem out
  have seat_other {b : Arm} (h : b ≠ a) {st : ArmState} : Function.update c.seat a st b = c.seat b :=
    Function.update_of_ne h ..
  have none_moves (b : Arm) : ¬(c.seat b = .lowering ∨ c.seat b = .lifting) := fun h =>
    nomatch free.symm.trans ((ok.holder b).2 h)
  have others {x : Arm} (h : x ∈ c.queue) : x ≠ a := fun e => new (e ▸ h)
  refine ⟨ok.short, ok.nodup, fun b => ?_, fun b => ?_, ?_, fun b t => ?_, fun b h => ?_⟩
  · by_cases e : b = a
    · subst e
      simp only [put, Function.update_self, true_iff]
      cases up <;> simp
    · simp only [put, seat_other e, none_moves, iff_false, Option.some.injEq]
      exact fun same => e same.symm
  · by_cases e : b = a
    · subst e
      simp only [put, Function.update_self, new, false_iff]
      cases up <;> simp
    · simp only [put, seat_other e]; exact ok.queue b
  · refine ok.liftFirst.imp_of_mem fun {x y} hx hy first => ?_
    simp only [put, seat_other (others hx), seat_other (others hy)]
    exact first
  · by_cases e : b = a
    · rw [e]
    · exact nomatch free.symm.trans (ok.timer b ((Function.update_of_ne e ..).symm.trans t))
  · by_cases e : b = a
    · subst e; exact nomatch fit.symm.trans h
    · simp only [put, seat_other e]; exact ok.unfitted b h

/-- The fitted flag of a STOWED arm may be cleared, and that of any arm set. -/
theorem refit {b : Bool} (fit : b = false → c.seat a = .stowed) : (c.refit a b).Ok := by
  refine ⟨ok.short, ok.nodup, ok.holder, ok.queue, ok.liftFirst, ok.timer, fun x h => ?_⟩
  by_cases e : x = a
  · subst e; exact fit ((Function.update_self ..).symm.trans h)
  · exact ok.unfitted x ((Function.update_of_ne e ..).symm.trans h)

end Ok

/-- A circuit with no holder and no queue, in which every arm is at rest. -/
theorem ok_of_empty {c : Circuit} (holder : c.holder = none) (queue : c.queue = [])
    (resting : ∀ a, (c.seat a).inCircuit = false) (timed : ∀ a, c.timed a = false)
    (unfitted : ∀ a, c.fitted a = false → c.seat a = .stowed) : c.Ok := by
  refine ⟨by simp [queue], by simp [queue], fun a => ?_, fun a => ?_, by simp [queue],
    fun a t => absurd ((timed a).symm.trans t) nofun, unfitted⟩
  · rw [holder]
    refine ⟨nofun, ?_⟩
    rintro (e | e) <;> have out := resting a <;> rw [e] at out <;> exact nomatch out
  · rw [queue]
    refine ⟨nofun, ?_⟩
    rintro (e | e) <;> have out := resting a <;> rw [e] at out <;> exact nomatch out

end Circuit

end Sys2Proof.LiftCircuit
end

section
/-! SUPPORT. The operations of the arm sequencer as moves in the lift circuit (06 R94 to R99, R104 to R107): each keeps
its invariant. -/

namespace Sys2Proof.LiftCircuit
open Sys2Proof Sys2Proof.Machine Sys2Proof.Signals

/-! ## What keeps the invariant -/

/-- The invariant carries over from a state to a later one. -/
def KeepsCircuit (s t : State) : Prop := (circuit s).Ok → (circuit t).Ok

namespace KeepsCircuit

theorem refl (s : State) : KeepsCircuit s s := id
theorem trans {s t u : State} (h : KeepsCircuit s t) (k : KeepsCircuit t u) : KeepsCircuit s u := k ∘ h
theorem ite {s t u : State} {c : Prop} [Decidable c] (h : KeepsCircuit s t) (k : KeepsCircuit s u) :
    KeepsCircuit s (if c then t else u) := by
  split
  · exact h
  · exact k
theorem foldl {α : Type} {f : State → α → State} (h : ∀ s a, KeepsCircuit s (f s a)) (l : List α) (s : State) :
    KeepsCircuit s (l.foldl f s) :=
  foldl_of_step KeepsCircuit refl (fun _ _ _ => trans) f h l s
theorem of_circuit {s t : State} (h : circuit t = circuit s) : KeepsCircuit s t := fun ok => h ▸ ok

end KeepsCircuit

theorem set_set {α : Type} (p : PerArm α) (a : Arm) (x y : α) : (p.set a x).set a y = p.set a y := by cases a <;> rfl

/-- The circuit after one arm's record is written. -/
theorem circuit_of_set {s t : State} {a : Arm} {r : ArmRec} (tables : t.tables = s.tables)
    (arms : t.arms = s.arms.set a r) : circuit t =
      { (circuit s).put a (seat r.state) r.motionT.isSome with holder := t.lift.holder, queue := t.lift.queue } := by
  have written {β : Type} (f : ArmRec → β) :
      (fun b => f (t.arms.get b)) = Function.update (fun b => f (s.arms.get b)) a (f r) := by
    funext b
    by_cases e : b = a
    · subst e; rw [arms, PerArm.get_set_same, Function.update_self]
    · rw [arms, PerArm.get_set_other _ _ e, Function.update_of_ne e]
  refine Circuit.ext ?_ (written fun x => seat x.state) (written fun x => x.motionT.isSome) rfl rfl
  funext b
  show (t.tables.arms.arms.get b).fitted = _
  rw [tables]; rfl

theorem circuit_put_self (c : Circuit) (a : Arm) : c.put a (c.seat a) (c.timed a) = c := by
  unfold Circuit.put; rw [Function.update_eq_self, Function.update_eq_self]

/-- A record written with the same seat, whose motion timer runs on, is nothing to the circuit. -/
theorem circuit_of_seated {s t : State} {a : Arm} {r : ArmRec} (tables : t.tables = s.tables)
    (arms : t.arms = s.arms.set a r) (lift : t.lift.holder = s.lift.holder ∧ t.lift.queue = s.lift.queue)
    (same : seat r.state = seat (s.arms.get a).state)
    (motion : r.motionT.isSome = (s.arms.get a).motionT.isSome) : circuit t = circuit s := by
  have put := circuit_put_self (circuit s) a
  rw [circuit_of_set tables arms, lift.1, lift.2, same, motion]
  exact put

section
variable {s t : State} {a : Arm} {r : ArmRec} (tables : t.tables = s.tables) (arms : t.arms = s.arms.set a r)
include tables arms

/-- An arm goes to rest and leaves the circuit. -/
theorem KeepsCircuit.of_rest (holder : t.lift.holder = if s.lift.holder = some a then none else s.lift.holder)
    (queue : t.lift.queue = s.lift.queue.erase a) (motion : r.motionT = none) (resting : r.state.inCircuit = false)
    (fit : (circuit s).Ok → (s.armCfg a).fitted = false → r.state = .stowed) : KeepsCircuit s t := by
  intro ok
  have rested := ok.rest (a := a) (st := seat r.state) (seat_inCircuit.trans resting)
    fun f => seat_stowed.2 (fit ok f)
  rw [circuit_of_set tables arms, holder, queue, motion]
  exact rested

/-- An arm outside the circuit stays so, in another state. -/
theorem KeepsCircuit.of_outside (lift : t.lift.holder = s.lift.holder ∧ t.lift.queue = s.lift.queue)
    (out : (s.arms.get a).state.inCircuit = false) (motion : r.motionT = (s.arms.get a).motionT)
    (resting : r.state.inCircuit = false)
    (fit : (circuit s).Ok → (s.armCfg a).fitted = false → r.state = .stowed) : KeepsCircuit s t := by
  intro ok
  have rested := ok.rest (a := a) (st := seat r.state) (seat_inCircuit.trans resting)
    fun f => seat_stowed.2 (fit ok f)
  rw [ok.rest_of_out (seat_inCircuit.trans out)] at rested
  rw [circuit_of_set tables arms, lift.1, lift.2, motion]
  exact rested

/-- The head of the queue is granted the free circuit. -/
theorem KeepsCircuit.of_grant (mem : a ∈ s.lift.queue) (free : s.lift.holder = none) (holder : t.lift.holder = some a)
    (queue : t.lift.queue = s.lift.queue.erase a) (motion : r.motionT.isSome = true) {up : Bool}
    (state : r.state = if up then .lifting else .lowering) : KeepsCircuit s t := by
  intro ok
  have fit : (circuit s).fitted a = true := ok.fitted_of_seat fun e => by
    rcases (ok.queue a).1 mem with w | w <;> exact nomatch w.symm.trans e
  have granted := (ok.rest (a := a) (st := .init) rfl fun f => nomatch fit.symm.trans f).grant fit
    (by rw [Circuit.rest_seat]; rfl) (by simp [Circuit.rest, circuit, free]) up
  have seated : seat r.state = if up then .lifting else .lowering := by rw [state]; cases up <;> rfl
  rw [circuit_of_set tables arms, holder, queue, motion, seated]
  simp only [Circuit.rest, Circuit.put, Function.update_idem] at granted
  exact granted

end

/-! ## Joining the queue -/

/-- A place in the queue by wait kind: behind arms that wait to lift, or last (06 R96). -/
theorem queueInsert_split (arms : PerArm ArmRec) (up : Bool) (a : Arm) (q : List Arm) :
    ∃ l₁ l₂, q = l₁ ++ l₂ ∧ queueInsert arms up a q = l₁ ++ a :: l₂
      ∧ (up = true → ∀ x ∈ l₁, (arms.get x).state = .waitUp) ∧ (up = false → l₂ = []) := by
  cases up with
  | true =>
    exact ⟨_, _, (List.takeWhile_append_dropWhile ..).symm, rfl,
      fun _ x mem => beq_iff_eq.1 (List.mem_takeWhile_imp (p := fun x => (arms.get x).state == .waitUp) mem), nofun⟩
  | false => exact ⟨q, [], (List.append_nil q).symm, rfl, nofun, fun _ => rfl⟩

/-- A fitted arm that does not move takes its place in the queue, which it may have had another one in. -/
theorem KeepsCircuit.of_place {s t : State} {a : Arm} {r : ArmRec} (tables : t.tables = s.tables)
    (arms : t.arms = s.arms.set a r) (fit : (s.armCfg a).fitted = true) (free : s.lift.holder ≠ some a)
    {up : Bool} (state : r.state = if up then .waitUp else .waitDown) (motion : r.motionT = (s.arms.get a).motionT)
    (holder : t.lift.holder = s.lift.holder)
    (queue : t.lift.queue = queueInsert s.arms up a (s.lift.queue.erase a))
    (room : (s.lift.queue.erase a).length < 2) : KeepsCircuit s t := by
  intro ok
  obtain ⟨l₁, l₂, split, placed, ups, last⟩ := queueInsert_split s.arms up a (s.lift.queue.erase a)
  have others {x : Arm} (mem : x ∈ l₁) : x ≠ a :=
    (ok.nodup.mem_erase_iff.1 (show x ∈ s.lift.queue.erase a from split ▸ List.mem_append_left _ mem)).1
  have admitted := (ok.rest (a := a) (st := .init) rfl fun f => nomatch fit.symm.trans f).enqueue fit
    (by rw [Circuit.rest_seat]; rfl) room split
    (fun isUp x mem => (Function.update_of_ne (others mem) ..).trans (seat_waitUp.2 (ups isUp x mem))) last
  have seated : seat r.state = if up then .waitUp else .waitDown := by rw [state]; cases up <;> rfl
  have timed : (s.arms.get a).motionT.isSome = false := ok.not_timed free
  have held : (circuit s).holder = s.lift.holder := rfl
  rw [circuit_of_set tables arms, holder, queue, placed, motion, timed, seated]
  simpa only [Circuit.rest, Circuit.put, Function.update_idem, Function.update_self, held, if_neg free] using admitted

theorem join_keepsCircuit {a : Arm} {s : State} (up : Bool) (origin : WaitOrigin)
    (fit : (circuit s).Ok → (s.armCfg a).fitted = true) (out : (s.arms.get a).state.inCircuit = false)
    (room : s.lift.queue.length < 2) : KeepsCircuit s (join a up origin s) := by
  intro ok
  have outside : ((circuit s).seat a).inCircuit = false := seat_inCircuit.trans out
  have absent : s.lift.queue.erase a = s.lift.queue := List.erase_of_not_mem (ok.not_mem outside)
  exact KeepsCircuit.of_place (s := s) (t := join a up origin s) (up := up) rfl rfl (fit ok) (ok.not_holder outside) rfl
    rfl rfl (by rw [absent]; rfl) (by rw [absent]; exact room) ok

/-- An arm that is not STOWED is fitted. -/
theorem fitted_of_state {s : State} {a : Arm} (other : (s.arms.get a).state ≠ .stowed) (ok : (circuit s).Ok) :
    (s.armCfg a).fitted = true := ok.fitted_of_seat fun e => other (seat_stowed.1 e)

theorem mayJoin_iff {s : State} {l : Fin 4} :
    mayJoin s l = true ↔ s.lift.queue.length < 2 ∧ l < 3 ∧ s.shutdown.hold = false := by
  simp [mayJoin, and_assoc]

theorem tryJoin_keepsCircuit {a : Arm} {s : State} (up : Bool) (origin : WaitOrigin)
    (fit : (circuit s).Ok → (s.armCfg a).fitted = true) (out : (s.arms.get a).state.inCircuit = false) :
    KeepsCircuit s (tryJoin a up origin s) := by
  unfold tryJoin
  split
  · next may => exact join_keepsCircuit up origin fit out (mayJoin_iff.1 may).1
  · exact .refl s

theorem rejoinArm_keepsCircuit (s : State) (a : Arm) : KeepsCircuit s (rejoinArm s a) := by
  unfold rejoinArm
  dsimp only
  split
  · next may =>
    obtain ⟨frozen, may⟩ := (Bool.and_eq_true _ _).mp may
    have frozen := beq_iff_eq.1 frozen
    have out : (s.arms.get a).state.inCircuit = false := by rw [frozen]; rfl
    have fit := fitted_of_state (s := s) (a := a) (by rw [frozen]; exact nofun)
    obtain ⟨room, -⟩ := mayJoin_iff.1 may
    split
    · exact join_keepsCircuit true _ fit out room
    · exact join_keepsCircuit false _ fit out room
    · exact .refl s
  · exact .refl s

theorem rejoinFrozen_keepsCircuit (s : State) : KeepsCircuit s (rejoinFrozen s) :=
  KeepsCircuit.foldl rejoinArm_keepsCircuit _ s

/-! ## Leaving and changing the queue (06 R94) -/

section
variable (a : Arm) (s : State)

theorem leaveQueue_arms :
    (leaveQueue a s).arms = s.arms.set a { s.arms.get a with waitT := none, starved := false } :=
  (reportEnded_reports ..).arms
theorem leaveQueue_lift : (leaveQueue a s).lift = { s.lift with queue := s.lift.queue.erase a } :=
  (reportEnded_reports ..).lift
theorem leaveQueue_tables : (leaveQueue a s).tables = s.tables := tables_of_signals (leaveQueue_signals a s)

theorem turnBack_arms (st : ArmState) : (turnBack a st s).arms =
    s.arms.set a { s.arms.get a with waitT := none, starved := false, state := st } := by
  show (leaveQueue a s).arms.set a { (leaveQueue a s).arms.get a with state := st } = _
  rw [leaveQueue_arms, set_set, PerArm.get_set_same]
theorem turnBack_lift (st : ArmState) : (turnBack a st s).lift = { s.lift with queue := s.lift.queue.erase a } :=
  leaveQueue_lift a s

end

/-- An arm that waits goes back to a state of rest. -/
theorem turnBack_keepsCircuit {a : Arm} {s : State} {st : ArmState}
    (waits : (s.arms.get a).state = .waitDown ∨ (s.arms.get a).state = .waitUp) (resting : st.inCircuit = false) :
    KeepsCircuit s (turnBack a st s) := by
  intro ok
  have mem : a ∈ (circuit s).queue := (ok.queue a).2 (waits.imp seat_waitDown.2 seat_waitUp.2)
  have free : s.lift.holder ≠ some a := ok.not_holder_of_mem mem
  have fit := fitted_of_state (a := a) (by rcases waits with w | w <;> rw [w] <;> exact nofun) ok
  have still : (s.arms.get a).motionT = none :=
    Option.not_isSome_iff_eq_none.1 (Bool.eq_false_iff.1 (ok.not_timed free))
  refine KeepsCircuit.of_rest (leaveQueue_tables a s) (turnBack_arms a s st) ?_ ?_ still resting
    (fun _ f => nomatch fit.symm.trans f) ok
  · rw [turnBack_lift, if_neg free]
  · rw [turnBack_lift]

/-- An arm that waits may change the kind of its wait. -/
theorem changeWait_keepsCircuit {a : Arm} {s : State} (up : Bool)
    (waits : (s.arms.get a).state = .waitDown ∨ (s.arms.get a).state = .waitUp) :
    KeepsCircuit s (changeWait a up s) := by
  intro ok
  have mem : a ∈ (circuit s).queue := (ok.queue a).2 (waits.imp seat_waitDown.2 seat_waitUp.2)
  have fit := fitted_of_state (a := a) (by rcases waits with w | w <;> rw [w] <;> exact nofun) ok
  have shorter : (s.lift.queue.erase a).length < 2 := by
    have short := ok.short
    have some := List.length_pos_of_mem mem
    have less : (s.lift.queue.erase a).length = s.lift.queue.length - 1 := List.length_erase_of_mem mem
    change s.lift.queue.length ≤ 2 at short
    change 0 < s.lift.queue.length at some
    omega
  exact KeepsCircuit.of_place (s := s) (t := changeWait a up s) (up := up) rfl rfl fit (ok.not_holder_of_mem mem) rfl
    rfl rfl rfl shorter ok

theorem turnUp_keepsCircuit {a : Arm} {s : State} (waits : (s.arms.get a).state = .waitDown) :
    KeepsCircuit s (turnUp a s) := by
  have back : KeepsCircuit s (turnBack a .stowed s) := turnBack_keepsCircuit (.inl waits) rfl
  unfold turnUp
  split
  · exact back
  all_goals exact .ite back (changeWait_keepsCircuit true (.inl waits))

theorem turnDown_keepsCircuit {a : Arm} {s : State} (waits : (s.arms.get a).state = .waitUp) :
    KeepsCircuit s (turnDown a s) := by
  have back : KeepsCircuit s (turnBack a .working s) := turnBack_keepsCircuit (.inr waits) rfl
  unfold turnDown
  split
  · exact back
  all_goals exact .ite back (changeWait_keepsCircuit false (.inr waits))

/-! ## The end of a motion, and the states of rest (06 R92, R98, R101) -/

theorem endMotion_keepsCircuit {a : Arm} {s : State} {st : ArmState}
    (moves : (s.arms.get a).state = .lowering ∨ (s.arms.get a).state = .lifting) (resting : st.inCircuit = false) :
    KeepsCircuit s (endMotion a st s) := by
  intro ok
  have holds : s.lift.holder = some a := (ok.holder a).2 (moves.imp seat_lowering.2 seat_lifting.2)
  have absent : a ∉ s.lift.queue := fun mem => ok.not_holder_of_mem mem holds
  have fit := fitted_of_state (a := a) (by rcases moves with w | w <;> rw [w] <;> exact nofun) ok
  exact KeepsCircuit.of_rest (s := s) (t := endMotion a st s) rfl rfl (if_pos holds).symm
    (List.erase_of_not_mem absent).symm rfl resting (fun _ f => nomatch fit.symm.trans f) ok

theorem enterFloat_circuit {a : Arm} {s : State} (working : (s.arms.get a).state = .working) :
    circuit (enterFloat a s) = circuit s := by
  unfold enterFloat
  dsimp only
  split
  · exact circuit_of_seated rfl rfl ⟨rfl, rfl⟩ (by rw [working]; rfl) rfl
  · rfl

theorem leaveFloat_circuit {a : Arm} {s : State} (float : (s.arms.get a).state = .float) :
    circuit (leaveFloat a s) = circuit s := by
  unfold leaveFloat
  dsimp only
  split
  · exact circuit_of_seated rfl rfl ⟨rfl, rfl⟩ (by rw [float]; rfl) rfl
  · rfl

theorem onRoad_keepsCircuit {a : Arm} {s : State} {weigh : Arm → State → State}
    (turning : (s.arms.get a).state.turning = true) (weighed : circuit (weigh a s) = circuit s) :
    KeepsCircuit s (onRoad a weigh s) := by
  have out : (s.arms.get a).state.inCircuit = false := by
    revert turning; cases (s.arms.get a).state <;> decide
  have fit := fitted_of_state (s := s) (a := a) fun e => by rw [e] at turning; exact nomatch turning
  unfold onRoad
  split
  · next may =>
    exact join_keepsCircuit true _ fit out (mayJoin_iff.1 ((Bool.and_eq_true _ _).mp may).2).1
  · exact .of_circuit weighed

theorem leaveInit_keepsCircuit {a : Arm} {s : State} (init : (s.arms.get a).state = .init) :
    KeepsCircuit s (leaveInit a s) := by
  have out : (s.arms.get a).state.inCircuit = false := by rw [init]; rfl
  unfold leaveInit
  refine .ite (.ite ?_ ?_) (.refl s)
  · exact .of_outside (r := { s.arms.get a with state := .stowed }) rfl rfl ⟨rfl, rfl⟩ out rfl rfl fun _ _ => rfl
  · exact tryJoin_keepsCircuit _ _ (fitted_of_state (by rw [init]; exact nofun)) out

/-- The one transition of a fitted arm at a period keeps the invariant. -/
theorem transition_keepsCircuit {a : Arm} {s : State} (fit : (s.armCfg a).fitted = true) :
    KeepsCircuit s (transition a s) := by
  unfold transition
  dsimp only
  cases state : (s.arms.get a).state
  case init => exact leaveInit_keepsCircuit state
  case stowed => exact .ite (tryJoin_keepsCircuit _ _ (fun _ => fit) (by rw [state]; rfl)) (.refl s)
  case waitDown => exact .ite (.refl s) (turnUp_keepsCircuit state)
  case waitUp => exact .ite (turnDown_keepsCircuit state) (.refl s)
  case lowering => exact .ite (endMotion_keepsCircuit (.inl state) rfl) (.refl s)
  case lifting => exact .ite (endMotion_keepsCircuit (.inr state) rfl) (.refl s)
  case working => exact onRoad_keepsCircuit (by rw [state]; rfl) (enterFloat_circuit state)
  case float => exact onRoad_keepsCircuit (by rw [state]; rfl) (leaveFloat_circuit state)
  case frozen => exact rejoinArm_keepsCircuit s a
  case faulted => exact .refl s

/-! ## The stages of an arm period (06 R90) -/

theorem circuit_of_reports {s t : State} (h : Reports s t) : circuit t = circuit s := by
  unfold Reports at h; rw [h]; rfl

theorem clearObstruction_circuit (a : Arm) (s : State) : circuit (clearObstruction a s) = circuit s := by
  unfold clearObstruction
  dsimp only
  split
  · exact (circuit_of_reports (reportEnded_reports ..)).trans (circuit_of_seated rfl rfl ⟨rfl, rfl⟩ rfl rfl)
  · rfl
theorem deriveDesired_circuit (a : Arm) (s : State) : circuit (deriveDesired a s) = circuit s :=
  (circuit_of_seated (s := clearObstruction a s) (t := deriveDesired a s) rfl rfl ⟨rfl, rfl⟩ rfl rfl).trans
    (clearObstruction_circuit a s)
theorem readCfg_circuit (a : Arm) (s : State) : circuit (readCfg a s) = circuit s :=
  circuit_of_seated rfl rfl ⟨rfl, rfl⟩ rfl rfl

theorem armStage_keepsCircuit (s : State) (a : Arm) : KeepsCircuit s (armStage s a) := by
  have ready : circuit (deriveDesired a (readCfg a s)) = circuit s :=
    (deriveDesired_circuit a _).trans (readCfg_circuit a s)
  unfold armStage
  dsimp only
  split
  · next fit =>
    refine (KeepsCircuit.of_circuit ready).trans (transition_keepsCircuit ?_)
    exact (congrFun (congrArg Circuit.fitted ready) a).trans fit
  · exact .of_circuit (readCfg_circuit a s)

section
variable (a : Arm) (s : State)

/-- The record of an arm that is granted the circuit (06 R95). -/
def grantedRec (r : ArmRec) : ArmRec :=
  { r with
    waitT := none, starved := false
    state := if r.state == .waitUp then .lifting else .lowering
    valve := if r.state == .waitUp then r.read.lift else r.read.lower
    motionT := msTimer r.read.motionLimit }

theorem grantTo_arms : (grantTo a s).arms = s.arms.set a (grantedRec (s.arms.get a)) := by
  unfold grantTo putArm
  dsimp only
  rw [leaveQueue_arms, set_set, PerArm.get_set_same]
  rfl
theorem grantTo_lift : (grantTo a s).lift = { s.lift with holder := some a, queue := s.lift.queue.erase a } := by
  unfold grantTo putArm
  dsimp only
  rw [leaveQueue_lift]
theorem grantTo_tables : (grantTo a s).tables = s.tables := leaveQueue_tables a s

end

theorem mayGrant_iff {s : State} : mayGrant s = true ↔
    s.lift.holder = none ∧ s.faults.level < 3 ∧ s.shutdown.hold = false ∧ 600 ≤ (s.role .engineSpeed).value
    ∧ s.tables.arms.liftFlow ≤ s.alloc.fav := by
  unfold mayGrant Config.engineMinimum
  simp only [Bool.and_eq_true, Option.isNone_iff_eq_none, decide_eq_true_eq, Bool.not_eq_true', and_assoc]
  exact Iff.rfl

theorem weighGrant_keepsCircuit (s : State) : KeepsCircuit s (weighGrant s) := by
  unfold weighGrant
  split
  · exact .refl s
  · next a rest queue =>
    split
    · next may =>
      refine .of_grant (grantTo_tables a s) (grantTo_arms a s) (queue ▸ List.mem_cons_self) (mayGrant_iff.1 may).1 ?_ ?_
        rfl (up := (s.arms.get a).state == .waitUp) rfl
      · rw [grantTo_lift]
      · rw [grantTo_lift]
    · exact .refl s

theorem commandStage_circuit (s : State) (a : Arm) : circuit (commandStage s a) = circuit s :=
  circuit_of_seated rfl rfl ⟨rfl, rfl⟩ rfl rfl

theorem circuit_ite {c : Prop} [Decidable c] {s t u : State} (h : circuit t = circuit s) (k : circuit u = circuit s) :
    circuit (if c then t else u) = circuit s := Travel.field_ite h k
theorem circuit_foldl {α : Type} {f : State → α → State} (h : ∀ s a, circuit (f s a) = circuit s) (l : List α)
    (s : State) : circuit (l.foldl f s) = circuit s := foldl_field circuit f h l s

theorem closeBanks_circuit (c) (s : State) : circuit (closeBanks c s) = circuit s := circuit_ite rfl rfl
theorem banksFollowArms_circuit (s : State) : circuit (banksFollowArms s) = circuit s := closeBanks_circuit _ s

theorem armPeriodBody_keepsCircuit (s : State) : KeepsCircuit s (armPeriodBody s) := by
  have staged : KeepsCircuit s
      (weighGrant (allArms.foldl armStage { s with lift.timer := msTimer Config.armPeriodMs })) :=
    KeepsCircuit.trans (t := { s with lift.timer := msTimer Config.armPeriodMs }) (.of_circuit rfl)
      ((KeepsCircuit.foldl armStage_keepsCircuit _ _).trans (weighGrant_keepsCircuit _))
  exact staged.trans (.of_circuit ((banksFollowArms_circuit _).trans (circuit_foldl commandStage_circuit _ _)))

/-! ## Motion, float and wait timers (06 R97, R99, R102) -/

/-- The motion timer that runs is the holder's. -/
theorem motionExpired_keepsCircuit {a : Arm} {s : State} (runs : (s.arms.get a).motionT ≠ none) :
    KeepsCircuit s (motionExpired a s) := by
  intro ok
  have holds : s.lift.holder = some a := ok.timer a (Option.isSome_iff_ne_none.2 runs)
  have absent : a ∉ s.lift.queue := fun mem => ok.not_holder_of_mem mem holds
  let faulted : State :=
    putArm a { s.arms.get a with state := .faulted, valve := 0, motionT := none } { s with lift.holder := none }
  have fit := fitted_of_state (s := s) (a := a) (fun e => by
    rcases (ok.holder a).1 holds with m | m <;> exact nomatch (seat_stowed.2 e).symm.trans m) ok
  have stuck : (circuit faulted).Ok := KeepsCircuit.of_rest (s := s) (t := faulted) rfl rfl (if_pos holds).symm
    (List.erase_of_not_mem absent).symm rfl rfl (fun _ f => nomatch fit.symm.trans f) ok
  exact weighGrant_keepsCircuit _ (KeepsCircuit.of_circuit
    ((banksFollowArms_circuit _).trans (circuit_of_reports (reportOnce_reports ..))) stuck)

theorem floatExpired_circuit (a : Arm) (s : State) : circuit (floatExpired a s) = circuit s :=
  (circuit_of_reports (reportBegun_reports ..)).trans (circuit_of_seated rfl rfl ⟨rfl, rfl⟩ rfl rfl)
theorem waitExpired_circuit (a : Arm) (s : State) : circuit (waitExpired a s) = circuit s :=
  (circuit_of_reports (reportBegun_reports ..)).trans (circuit_of_seated rfl rfl ⟨rfl, rfl⟩ rfl rfl)

end Sys2Proof.LiftCircuit
end

section
/-! SUPPORT. The events beside the arm sequencer leave the lift circuit; freezing, restarts, loaded tables and a COMMIT
of ARM_CONFIG keep its invariant, and so does every step: O9. -/

namespace Sys2Proof.LiftCircuit
open Sys2Proof Sys2Proof.Machine Sys2Proof.Signals

/-! ## Footprints that leave the circuit -/

theorem circuit_of_sends {s t : State} (h : Sends s t) : circuit t = circuit s := by unfold Sends at h; rw [h]; rfl
theorem circuit_of_votes {s t : State} (h : Votes s t) : circuit t = circuit s := by unfold Votes at h; rw [h]; rfl

/-- The fitted flags are those of the tables, and the seats and timers those of the arms' records. -/
theorem circuit_congr {s t : State} (tables : t.tables.arms = s.tables.arms) (arms : t.arms = s.arms)
    (lift : t.lift = s.lift) : circuit t = circuit s := by
  unfold circuit State.armCfg
  rw [tables, arms, lift]

section
variable (s : State)

theorem reportBegun_circuit (k n sev) : circuit (reportBegun k n sev s) = circuit s :=
  circuit_of_reports (reportBegun_reports ..)
theorem reportEnded_circuit (k n) : circuit (reportEnded k n s) = circuit s :=
  circuit_of_reports (reportEnded_reports ..)
theorem reportEndedIf_circuit (b k n) : circuit (reportEndedIf b k n s) = circuit s :=
  circuit_of_reports (reportEndedIf_reports ..)

/-- An acknowledgement takes a FAULTED arm to INIT, which is the same to the circuit (06 R100). -/
theorem unfaultArm_circuit (a) : circuit (unfaultArm s a) = circuit s := by
  unfold unfaultArm
  dsimp only
  split
  · next faulted => exact circuit_of_seated rfl rfl ⟨rfl, rfl⟩ (by rw [beq_iff_eq.1 faulted]; rfl) rfl
  · rfl
theorem acknowledge_circuit : circuit (acknowledge s) = circuit s :=
  (circuit_foldl unfaultArm_circuit _ _).trans rfl
theorem weighAck_circuit : circuit (weighAck s) = circuit s := circuit_ite ((acknowledge_circuit _).trans rfl) rfl

/-! ## Signals and the frame path (02, 01) -/

theorem recompute_circuit (n) : circuit (recompute n s) = circuit s := circuit_of_votes (recompute_votes n s)
theorem freshnessExpired_circuit (n) : circuit (freshnessExpired n s) = circuit s :=
  (weighAck_circuit _).trans (reportBegun_circuit _ _ _ _)
theorem senderExpired_circuit (i) : circuit (senderExpired i s) = circuit s := by
  unfold senderExpired
  dsimp only
  split
  · rfl
  · exact (weighAck_circuit _).trans (recompute_circuit _ _)
theorem removePlace_circuit (i) : circuit (removePlace i s) = circuit s := by
  unfold removePlace
  split
  · rfl
  · exact (recompute_circuit _ _).trans (reportEnded_circuit _ _ _)
theorem removeSenders_circuit (p r) : circuit (removeSenders p r s) = circuit s :=
  circuit_ite rfl ((circuit_foldl (fun s n => recompute_circuit s n) _ _).trans (reportEnded_circuit _ _ _))
theorem presentSender_circuit (q f e n) : circuit (presentSender q f e n s).2 = circuit s := by
  unfold presentSender
  split
  · split
    · rfl
    · exact removePlace_circuit s _
  · split
    · rfl
    · exact reportBegun_circuit _ _ _ _
theorem applyDirectPick_circuit (d) (s : State) (p) : circuit (applyDirectPick d s p) = circuit s := by
  unfold applyDirectPick
  split
  · rfl
  · refine circuit_ite ?_ rfl
    split
    · rfl
    · exact circuit_ite rfl rfl
theorem refreshSlot_circuit (n) : circuit (refreshSlot n s) = circuit s := by
  unfold refreshSlot
  dsimp only
  exact (reportEndedIf_circuit _ _ _ _).trans rfl
theorem refreshByPick_circuit (d) (s : State) (p) : circuit (refreshByPick d s p) = circuit s := by
  unfold refreshByPick
  dsimp only
  exact circuit_ite (refreshSlot_circuit s _) rfl
theorem applyDirect_circuit (e d) : circuit (applyDirect e d s) = circuit s := by
  unfold applyDirect
  rw [weighAck_circuit, circuit_foldl (refreshByPick_circuit d), circuit_foldl (applyDirectPick_circuit d)]
theorem applySender_circuit (i e d) : circuit (applySender i e d s) = circuit s := by
  have token (s : State) (p) : circuit (applySenderToken i d s p) = circuit s := by
    unfold applySenderToken; split <;> rfl
  unfold applySender
  split
  · rfl
  · split
    · rfl
    · exact (recompute_circuit _ _).trans (circuit_foldl token _ _)
theorem forward_circuit (q f) : circuit (forward q f s) = circuit s :=
  circuit_ite rfl (circuit_ite (reportBegun_circuit _ _ _ _) (reportEnded_circuit _ _ _))
theorem forwardAction_circuit (e q f) : circuit (forwardAction e q f s) = circuit s := by
  unfold forwardAction
  split
  case h_5 => split <;> exact forward_circuit _ _ _
  case h_1 | h_2 => exact forward_circuit _ _ _
  all_goals rfl
theorem carryOut_circuit (i q f) : circuit (carryOut i q f s) = circuit s := by
  unfold carryOut
  dsimp only
  split
  · exact (forwardAction_circuit _ _ _ _).trans (applyDirect_circuit _ _ _)
  · split
    · exact forwardAction_circuit _ _ _ _
    · next v _ =>
      have presented := presentSender_circuit s q f i v.slot
      split
      · next heq => rw [heq] at presented; exact presented
      · next heq =>
        rw [heq] at presented
        exact (forwardAction_circuit _ _ _ _).trans <| (weighAck_circuit _).trans <|
          (applySender_circuit _ _ _ _).trans presented
theorem framePath_circuit (q f) : circuit (framePath q f s) = circuit s := by
  unfold framePath
  split
  · exact carryOut_circuit _ _ _ _
  · exact circuit_ite (forward_circuit _ _ _) rfl

/-! ## Replies, freed places and sends (11, 01, 09) -/

theorem placeReply_circuit : circuit (placeReply s) = circuit s := by unfold placeReply; split <;> rfl
theorem countReply_circuit : circuit (countReply s) = circuit s := by unfold countReply; split <;> rfl
theorem holdReply_circuit : circuit (holdReply s) = circuit s := by unfold holdReply; split <;> rfl
theorem offerReply_circuit : circuit (offerReply s) = circuit s :=
  circuit_ite rfl <| circuit_ite (countReply_circuit s) <| circuit_ite (holdReply_circuit s) (placeReply_circuit s)
theorem offerReplies_circuit : circuit (offerReplies s) = circuit s :=
  circuit_ite (offerReply_circuit s) ((offerReply_circuit _).trans (offerReply_circuit s))
theorem makeReply_circuit (r) : circuit (makeReply r s) = circuit s := circuit_ite rfl (offerReply_circuit _)
theorem answer_circuit (c t st d) : circuit (answer c t st d s) = circuit s := makeReply_circuit _ _
theorem deferredReply_circuit (st) : circuit (deferredReply st s) = circuit s := by
  unfold deferredReply
  split
  · rfl
  · exact makeReply_circuit _ _
theorem recordLeft_circuit (r) : circuit (recordLeft s r) = circuit s := by unfold recordLeft; split <;> rfl
theorem restartReplyLeft_circuit (q r) : circuit (restartReplyLeft q r s) = circuit s := circuit_ite rfl rfl
theorem continueSend_circuit (ch) : circuit (continueSend ch s) = circuit s := circuit_of_sends (continueSend_sends ..)
theorem placeChannelFrame_circuit (ch n q) : circuit (placeChannelFrame ch n q s) = circuit s :=
  circuit_of_sends (placeChannelFrame_sends ..)
theorem handPlace_circuit (q) : circuit (handPlace q s) = circuit s := by
  unfold handPlace
  dsimp only
  refine circuit_ite ?_ rfl
  split
  · rfl
  · split
    · rw [continueSend_circuit, placeChannelFrame_circuit]; rfl
    · rw [offerReplies_circuit]; rfl
theorem releaseHolder_circuit (h) : circuit (releaseHolder s h) = circuit s := by
  unfold releaseHolder
  split
  · rw [continueSend_circuit]; rfl
  · rw [countReply_circuit, countReply_circuit]
theorem sentBody_circuit (q r) : circuit (sentBody q r s) = circuit s :=
  (handPlace_circuit _ q).trans <| (restartReplyLeft_circuit _ _ _).trans (recordLeft_circuit _ _)

/-! ## Speed capture and governor (03, 05) -/

theorem captureUpdate_circuit : circuit (captureUpdate s) = circuit s := by
  have disagreed (u : State) : circuit (disagreementTest u) = circuit u :=
    circuit_ite (circuit_ite rfl rfl) (reportEndedIf_circuit _ _ _ _)
  have none (u : State) : circuit (speedNoneTest u) = circuit u :=
    circuit_ite (reportBegun_circuit _ _ _ _) (reportEndedIf_circuit _ _ _ _)
  exact (none _).trans (disagreed _)
theorem edge_circuit (ch d c) : circuit (edge ch d c s) = circuit s := by
  unfold edge
  dsimp only
  split
  · rfl
  · split
    · rfl
    · exact captureUpdate_circuit _
theorem resetCapture_circuit : circuit (resetCapture s) = circuit s :=
  (captureUpdate_circuit _).trans <| (reportEnded_circuit _ _ _).trans <| (reportEnded_circuit _ _ _).trans <|
    reportEnded_circuit _ _ _
theorem governorBody_circuit : circuit (governorBody s) = circuit s := by rw [Profiles.governorBody_frame s]; rfl
theorem enterHeld_circuit : circuit (enterHeld s) = circuit s := reportEndedIf_circuit _ _ _ _

/-! ## Allocator, doser, cut-off, power, time (07, 08, 10, 12) -/

theorem allocatorBody_circuit : circuit (allocatorBody s) = circuit s := by
  refine Circuit.ext rfl ?_ ?_ rfl rfl <;> funext a <;> cases a <;> rfl
theorem sprayBody_circuit : circuit (sprayBody s) = circuit s := by
  have low (u : State) : circuit (lowCheck u) = circuit u :=
    circuit_ite (circuit_ite (circuit_ite (reportBegun_circuit _ _ _ _) rfl)
      (circuit_ite (reportEndedIf_circuit _ _ _ _) rfl)) rfl
  have dry (u : State) : circuit (dryCheck u) = circuit u :=
    circuit_ite (reportBegun_circuit _ _ _ _) (reportEndedIf_circuit _ _ _ _)
  refine Eq.trans ?_ ((dry _).trans (low (onSpray (fun p => { p with timer := msTimer Config.sprayPeriodMs }) s)))
  unfold sprayBody
  dsimp only
  generalize dryCheck _ = u
  rfl
theorem weighRelease_circuit : circuit (weighRelease s) = circuit s := circuit_ite (reportEnded_circuit _ _ _) rfl
theorem cutoffActiveBody_circuit : circuit (cutoffActiveBody s) = circuit s :=
  circuit_ite rfl (reportBegun_circuit _ _ _ _)
theorem cutoffInactiveBody_circuit : circuit (cutoffInactiveBody s) = circuit s :=
  circuit_ite (weighRelease_circuit _) rfl
theorem failedStep_circuit (p) : circuit (failedStep p s) = circuit s := by
  unfold failedStep
  split
  · rfl
  · unfold failedPage
    exact circuit_congr rfl rfl rfl
theorem losePower_circuit : circuit (losePower s) = circuit s := by
  unfold losePower
  dsimp only
  split
  · exact failedStep_circuit s _
  · rfl
  · rfl
/-- Time runs timers down and stops none. -/
theorem passTime_circuit (n) : circuit (passTime n s) = circuit s := by
  have rec_eq (a : Arm) : (passTime n s).arms.get a = (s.arms.get a).pass n := PerArm.get_map ..
  refine Circuit.ext rfl ?_ ?_ rfl rfl <;> funext a
  · show seat ((passTime n s).arms.get a).state = _
    rw [rec_eq]; rfl
  · show ((passTime n s).arms.get a).motionT.isSome = _
    rw [rec_eq]; exact Option.isSome_map
theorem advance_circuit (n) : circuit (advance n s) = circuit s := by
  cases n with
  | zero => rfl
  | succ n => exact passTime_circuit s _

end

/-! ## Freezing, and the response level (06 R104, R106, R107; 10 R161) -/

/-- With every arm of the circuit FROZEN the circuit is empty. -/
theorem freezeCircuit_keepsCircuit (s : State) : KeepsCircuit s (freezeCircuit s) := by
  intro ok
  have rec_eq (a : Arm) := Cutoff.freezeCircuit_arms s a
  have tables : (freezeCircuit s).tables = s.tables := (freezeCircuit_publishes s).ends.tables
  have lift := Cutoff.freezeCircuit_lift s
  refine Circuit.ok_of_empty (congrArg Lift.holder lift) (congrArg Lift.queue lift) (fun a => ?_) (fun a => ?_)
    fun a f => ?_
  · show (seat ((freezeCircuit s).arms.get a).state).inCircuit = false
    rw [rec_eq, seat_inCircuit]
    unfold Cutoff.frozenRec
    split
    · rfl
    · next out => exact Bool.eq_false_iff.2 out
  · show ((freezeCircuit s).arms.get a).motionT.isSome = false
    rw [rec_eq]
    unfold Cutoff.frozenRec
    split
    · rfl
    · next out => exact ok.not_timed (ok.not_holder (seat_inCircuit.trans (Bool.eq_false_iff.2 out)))
  · have unfitted : (s.armCfg a).fitted = false := by
      have same : (freezeCircuit s).armCfg a = s.armCfg a := by unfold State.armCfg; rw [tables]
      exact same ▸ f
    have stowed := seat_stowed.1 (ok.unfitted a unfitted)
    show seat ((freezeCircuit s).arms.get a).state = .stowed
    rw [rec_eq]
    unfold Cutoff.frozenRec
    rw [stowed, if_neg (by decide), stowed]
    rfl

theorem publish_keepsCircuit (l : Fin 4) (s : State) : KeepsCircuit s (publish l s) := by
  let leveled : State := markFaultChange { s with faults.level := l }
  have published : KeepsCircuit s
      (if l = 3 then freezeCircuit (enterHeld { leveled with gov.lock := true }) else rejoinFrozen leveled) :=
    .ite (KeepsCircuit.trans (.of_circuit (enterHeld_circuit { leveled with gov.lock := true }))
        (freezeCircuit_keepsCircuit _))
      (KeepsCircuit.trans (t := leveled) (.of_circuit rfl) (rejoinFrozen_keepsCircuit _))
  exact published.trans (.ite (.of_circuit (closeBanks_circuit _ _)) (.refl _))
theorem formOnce_keepsCircuit (s : State) : KeepsCircuit s (formOnce s) := .ite (.refl s) (publish_keepsCircuit _ s)
theorem formLevel_keepsCircuit (s : State) : KeepsCircuit s (formLevel s) :=
  (formOnce_keepsCircuit s).trans (formOnce_keepsCircuit _)

/-! ## The end of an event -/

theorem completeAll_keepsCircuit (s : State) : KeepsCircuit s (completeAll s) :=
  (formLevel_keepsCircuit s).trans <|
    KeepsCircuit.trans (t := ((formLevel s).anyOrder ((allFin 6).filter fun ch => sendComplete ch (formLevel s))).2)
      (.of_circuit rfl)
      (.foldl (fun u ch => (KeepsCircuit.of_circuit (circuit_of_sends (completeIfDone_sends ch u))).trans
        (formLevel_keepsCircuit _)) _ _)
theorem giveTriggers_keepsCircuit (s : State) : KeepsCircuit s (giveTriggers s) :=
  KeepsCircuit.trans
    (t := { (s.anyOrder ((allFin 6).filter fun ch => s.ev.gives (s.chanCfg ch).source)).2 with ev := s.ev.given })
    (.of_circuit rfl)
    (.foldl (fun u ch => (KeepsCircuit.of_circuit (circuit_of_sends (giveTrigger_sends ch u))).trans
      (formLevel_keepsCircuit _)) _ _)
theorem clearMarks_keepsCircuit (s : State) : KeepsCircuit s { s with ev := .none } := .of_circuit rfl
theorem finish_keepsCircuit (s : State) : KeepsCircuit s (finish s) := by
  have round (u : State) : KeepsCircuit u (giveTriggers (formLevel u)) :=
    (formLevel_keepsCircuit u).trans (giveTriggers_keepsCircuit _)
  exact .ite ((round s).trans <| (round _).trans <| (round _).trans <| (formLevel_keepsCircuit _).trans
    (clearMarks_keepsCircuit _)) (clearMarks_keepsCircuit s)
theorem event_keepsCircuit {body : State → State} {s : State} (h : KeepsCircuit s.opened (body s.opened)) :
    KeepsCircuit s (event body s) :=
  (clearMarks_keepsCircuit s).trans (h.trans (finish_keepsCircuit _))
theorem event_apart {body : State → State} (h : ∀ s, circuit (body s) = circuit s) (s : State) :
    KeepsCircuit s (event body s) := event_keepsCircuit (.of_circuit (h _))

theorem linkLostBody_keepsCircuit (q) (s : State) : KeepsCircuit s (linkLostBody q s) := by
  have left (u : State) (r) : circuit (restartReplyLeft q r (recordLeft u r)) = circuit u :=
    (restartReplyLeft_circuit _ q r).trans (recordLeft_circuit u r)
  have emptied : KeepsCircuit s
      (s.onPort q fun p => { p with on := false, queue := [], offered := none, holders := [] }) := .of_circuit rfl
  exact emptied.trans <| (KeepsCircuit.of_circuit (circuit_foldl left _ _)).trans <|
    (KeepsCircuit.of_circuit (reportBegun_circuit _ _ _ _)).trans <| (formLevel_keepsCircuit _).trans <|
    (KeepsCircuit.foldl (fun u h => (KeepsCircuit.of_circuit (releaseHolder_circuit u h)).trans
      (formLevel_keepsCircuit _)) _ _).trans (completeAll_keepsCircuit _)

/-! ## Ignition shutdown (06 R107) -/

/-- A fitted arm's record after the freeze of a shutdown. -/
def shutdownRec (order : List Arm) (a : Arm) (r : ArmRec) : ArmRec :=
  { r with state := .frozen, valve := 0, pressure := 0, rpm := 0, scaled := 0, motionT := none, floatT := none
           waitT := none, starved := false, obstructed := false, frozenMotion := r.state.motion
           origin := frozenOrigin r, frozenRank := order.idxOf a + 1 }

theorem shutdownFreezeArm_arms (order) (s : State) (a) : (shutdownFreezeArm order s a).arms =
    if (s.armCfg a).fitted then s.arms.set a (shutdownRec order a (s.arms.get a)) else s.arms := by
  unfold shutdownFreezeArm
  dsimp only
  split
  · rw [(reportEnded_reports ..).arms, (reportEnded_reports ..).arms]; rfl
  · rfl
theorem shutdownFreezeArm_lift (order) (s : State) (a) : (shutdownFreezeArm order s a).lift = s.lift := by
  unfold shutdownFreezeArm
  dsimp only
  split
  · rw [(reportEnded_reports ..).lift, (reportEnded_reports ..).lift]; rfl
  · rfl

/-- The freeze of one arm leaves it FROZEN or not fitted, and the others as they were. -/
theorem shutdownFreezeArm_get (order) (s : State) (a b : Arm) : (shutdownFreezeArm order s a).arms.get b =
    if b = a ∧ (s.armCfg a).fitted = true then shutdownRec order a (s.arms.get a) else s.arms.get b := by
  rw [shutdownFreezeArm_arms]
  by_cases e : b = a
  · subst e
    by_cases f : (s.armCfg b).fitted = true
    · simp [f]
    · simp [f]
  · rw [if_neg (c := b = a ∧ _) fun h => e h.1]
    split
    · exact PerArm.get_set_other _ _ e
    · rfl

theorem shutdownFreeze_get (s : State) (b : Arm) : (shutdownFreeze s).arms.get b =
    if (s.armCfg b).fitted then shutdownRec s.lift.order b (s.arms.get b) else s.arms.get b := by
  have cfg (u : State) (a b : Arm) : (shutdownFreezeArm s.lift.order u a).armCfg b = u.armCfg b := by
    unfold State.armCfg; rw [tables_of_signals (shutdownFreezeArm_signals ..)]
  show (shutdownFreezeArm s.lift.order (shutdownFreezeArm s.lift.order (shutdownFreezeArm s.lift.order s .sl) .sr)
    .mb).arms.get b = _
  rw [shutdownFreezeArm_get, shutdownFreezeArm_get, shutdownFreezeArm_get, shutdownFreezeArm_get, cfg, cfg, cfg]
  cases b <;> simp [shutdownFreezeArm_get, cfg]

theorem startShutdown_keepsCircuit (s : State) : KeepsCircuit s (startShutdown s) := by
  let held : State := enterHeld { s with shutdown := { hold := true, timer := msTimer Config.shutdownMs } }
  have same : circuit held = circuit s := enterHeld_circuit _
  intro ok
  rw [← same] at ok
  have frozen : (circuit (shutdownFreeze held)).Ok := by
    have tables : (shutdownFreeze held).tables = held.tables :=
      foldl_field State.tables _ (fun s a => tables_of_signals (shutdownFreezeArm_signals _ s a)) allArms held
    have lift : (shutdownFreeze held).lift = held.lift.emptied :=
      congrArg Lift.emptied (foldl_field State.lift _ (shutdownFreezeArm_lift held.lift.order) allArms held)
    have cfg (a : Arm) : (shutdownFreeze held).armCfg a = held.armCfg a := by unfold State.armCfg; rw [tables]
    have stowed {a : Arm} (f : ¬(held.armCfg a).fitted = true) : (held.arms.get a).state = .stowed :=
      seat_stowed.1 (ok.unfitted a (Bool.eq_false_iff.2 f))
    refine Circuit.ok_of_empty (congrArg Lift.holder lift) (congrArg Lift.queue lift) (fun a => ?_) (fun a => ?_)
      fun a f => ?_
    · show (seat ((shutdownFreeze held).arms.get a).state).inCircuit = false
      rw [shutdownFreeze_get, seat_inCircuit]
      split
      · rfl
      · next f => rw [stowed f]; rfl
    · show ((shutdownFreeze held).arms.get a).motionT.isSome = false
      rw [shutdownFreeze_get]
      split
      · rfl
      · next f => exact ok.not_timed (ok.not_holder (seat_inCircuit.trans (by rw [stowed f]; rfl)))
    · have f : (held.armCfg a).fitted = false := cfg a ▸ f
      show seat ((shutdownFreeze held).arms.get a).state = .stowed
      rw [shutdownFreeze_get, if_neg (Bool.eq_false_iff.1 f), stowed (Bool.eq_false_iff.1 f)]
      rfl
  exact KeepsCircuit.of_circuit (closeBanks_circuit _ _) frozen

/-! ## Restarts and SLEEP (06 R89) -/

/-- A restart leaves the circuit empty, fitted arms in INIT and the others STOWED. -/
theorem setBlocks_ok (s : State) : (circuit (setBlocks s)).Ok := by
  have rec_eq (a : Arm) : (setBlocks s).arms.get a = ArmRec.restarted (s.armCfg a) := PerArm.get_map ..
  refine Circuit.ok_of_empty rfl rfl (fun a => ?_) (fun a => ?_) fun a f => ?_
  · show (seat ((setBlocks s).arms.get a).state).inCircuit = false
    rw [rec_eq]
    unfold ArmRec.restarted
    cases (s.armCfg a).fitted <;> rfl
  · show ((setBlocks s).arms.get a).motionT.isSome = false
    rw [rec_eq]; rfl
  · show seat ((setBlocks s).arms.get a).state = .stowed
    rw [rec_eq]
    unfold ArmRec.restarted
    rw [show (s.armCfg a).fitted = false from f]
    rfl

theorem restartBlocks_ok (s : State) : (circuit (restartBlocks s)).Ok := by
  have set := setBlocks_ok s
  unfold restartBlocks
  dsimp only
  generalize setBlocks s = u at set
  have cutoff (w : State) : circuit (judgeCutoff w) = circuit w := circuit_ite (reportBegun_circuit _ _ _ _) rfl
  have store (w : State) : circuit (judgeStore w) = circuit w := circuit_ite (reportBegun_circuit _ _ _ _) rfl
  have judged : circuit (endUnobserved (judgeStore (judgeCutoff (captureUpdate (takeAckReading u))))) = circuit u :=
    (circuit_foldl (fun _ _ => reportEnded_circuit _ _ _) _ _).trans <| (store _).trans <| (cutoff _).trans <|
      captureUpdate_circuit _
  generalize endUnobserved (judgeStore (judgeCutoff (captureUpdate (takeAckReading u)))) = v at judged
  have formed := formLevel_keepsCircuit v (KeepsCircuit.of_circuit judged set)
  have unlocked : KeepsCircuit (formLevel v) { formLevel v with gov.lock := false, ev.armChange := false } :=
    .of_circuit rfl
  exact KeepsCircuit.ite (.refl _) (startShutdown_keepsCircuit _) (unlocked formed)

theorem coldStart_ok (s : State) : (circuit (coldStart s)).Ok := restartBlocks_ok _
theorem warmRestart_keepsCircuit (c) (s : State) : KeepsCircuit s (warmRestart c s) := fun _ => restartBlocks_ok _

/-- In SLEEP every arm stays in its state, and every timer stops. -/
theorem sleepBody_keepsCircuit (s : State) : KeepsCircuit s (sleepBody s) := by
  intro ok
  have rec_eq (a : Arm) :
      (sleepBody s).arms.get a = { s.arms.get a with motionT := none, floatT := none, waitT := none } :=
    PerArm.get_map ..
  have seats : (circuit (sleepBody s)).seat = (circuit s).seat :=
    funext fun a => by
      show seat ((sleepBody s).arms.get a).state = _
      rw [rec_eq]; rfl
  have timed (a : Arm) : (circuit (sleepBody s)).timed a = false :=
    by
      show ((sleepBody s).arms.get a).motionT.isSome = false
      rw [rec_eq]; rfl
  refine ⟨ok.short, ok.nodup, ?_, ?_, ?_, fun a t => absurd ((timed a).symm.trans t) nofun, ?_⟩ <;> rw [seats]
  · exact ok.holder
  · exact ok.queue
  · exact ok.liftFirst
  · exact ok.unfitted
theorem restartIfDue_keepsCircuit (s : State) : KeepsCircuit s (restartIfDue s) :=
  .ite (event_keepsCircuit (warmRestart_keepsCircuit _ _)) (.refl s)
theorem sleepIfDue_keepsCircuit (s : State) : KeepsCircuit s (sleepIfDue s) := by
  have slept : KeepsCircuit s (event sleepBody s) := event_keepsCircuit (sleepBody_keepsCircuit _)
  exact .ite (.ite (slept.trans (event_keepsCircuit (warmRestart_keepsCircuit _ _))) slept) (.refl s)

/-! ## Changed fitted flags (06 R88) -/

section
variable (a : Arm) (s : State)

theorem unfitArm_arms : (unfitArm a s).arms = s.arms.set a { s.arms.get a with
    state := .stowed, valve := 0, pressure := 0, rpm := 0, scaled := 0, motionT := none, floatT := none, waitT := none
    starved := false, obstructed := false } := by
  unfold unfitArm putArm
  dsimp only
  rw [(reportEnded_reports ..).arms, (reportEnded_reports ..).arms]
  dsimp only
  rw [leaveQueue_arms, set_set, PerArm.get_set_same]
theorem unfitArm_lift : (unfitArm a s).lift = { s.lift with
    holder := if s.lift.holder = some a then none else s.lift.holder, queue := s.lift.queue.erase a } := by
  unfold unfitArm putArm
  dsimp only
  rw [(reportEnded_reports ..).lift, (reportEnded_reports ..).lift]
  dsimp only
  rw [leaveQueue_lift]

theorem unfitArm_circuit : circuit (unfitArm a s) = (circuit s).rest a .stowed := by
  rw [circuit_of_set (tables_of_signals (unfitArm_signals a s)) (unfitArm_arms a s), unfitArm_lift]
  rfl
theorem fitArm_circuit : circuit (fitArm a s) = (circuit s).put a .init ((circuit s).timed a) :=
  circuit_of_set (s := s) (t := fitArm a s) rfl rfl

end

/-- The circuit of a state judged by other fitted flags. -/
def Circuit.fittedAs (c : Circuit) (f : Arm → Bool) : Circuit := { c with fitted := f }

/-- What a changed fitted flag brings one arm (06 R88). -/
def fittedStep (old : ArmConfig) (s : State) (a : Arm) : State :=
  match (old.arms.get a).fitted, (s.armCfg a).fitted with
  | true, false => unfitArm a s
  | false, true => fitArm a s
  | true, true | false, false => s

theorem fittedStep_armCfg (old) (s : State) (a b) : (fittedStep old s a).armCfg b = s.armCfg b := by
  have tables : (fittedStep old s a).tables = s.tables := by
    unfold fittedStep
    split
    · exact tables_of_signals (unfitArm_signals a s)
    all_goals rfl
  unfold State.armCfg; rw [tables]

/-- An arm that acts on its new flag is then judged by it. -/
theorem fittedStep_ok {old : ArmConfig} {s : State} {a : Arm} {f : Arm → Bool} (was : f a = (old.arms.get a).fitted)
    (ok : ((circuit s).fittedAs f).Ok) :
    ((circuit (fittedStep old s a)).fittedAs (Function.update f a (s.armCfg a).fitted)).Ok := by
  unfold fittedStep
  cases o : (old.arms.get a).fitted <;> cases n : (s.armCfg a).fitted <;> rw [o] at was
  case true.false =>
    have left := (ok.rest (a := a) (st := .stowed) rfl fun _ => rfl).refit (b := false) fun _ => Circuit.rest_seat ..
    dsimp only
    rw [unfitArm_circuit]
    exact left
  case false.true =>
    have out : (((circuit s).fittedAs f).seat a).inCircuit = false := by rw [ok.unfitted a was]; rfl
    have joined := (ok.refit (a := a) (b := true) nofun).rest (a := a) (st := .init) rfl
      fun e => nomatch (Function.update_self ..).symm.trans e
    rw [(ok.refit (a := a) (b := true) nofun).rest_of_out out] at joined
    dsimp only
    rw [fitArm_circuit]
    exact joined
  all_goals
    show ((circuit s).fittedAs (Function.update f a _)).Ok
    rw [← was, Function.update_eq_self]
    exact ok

theorem actOnFitted_eq (old) (s : State) : actOnFitted old s = banksFollowArms (allArms.foldl (fittedStep old) s) := rfl

/-- Arms that act on their changed flags leave a circuit that agrees with the new ones. -/
theorem actOnFitted_ok {old : ArmConfig} {s : State}
    (ok : ((circuit s).fittedAs fun a => (old.arms.get a).fitted).Ok) : (circuit (actOnFitted old s)).Ok := by
  let one : State := fittedStep old s .sl
  let two : State := fittedStep old one .sr
  have first := fittedStep_ok (a := .sl) rfl ok
  have second := fittedStep_ok (s := one) (a := .sr) (old := old) rfl first
  have third := fittedStep_ok (s := two) (a := .mb) (old := old) rfl second
  rw [actOnFitted_eq, banksFollowArms_circuit]
  show (circuit (fittedStep old two .mb)).Ok
  have judged : (Function.update (Function.update (Function.update (fun a => (old.arms.get a).fitted) .sl
      (s.armCfg .sl).fitted) .sr (one.armCfg .sr).fitted) .mb (two.armCfg .mb).fitted)
      = (circuit (fittedStep old two .mb)).fitted := funext fun a => by
    show _ = ((fittedStep old two .mb).armCfg a).fitted
    cases a <;> simp [Function.update, one, two, fittedStep_armCfg]
  rw [judged] at third
  exact third

/-! ## RECALL, COMMIT and the other requests -/

theorem recallSlot_circuit (s : State) (n) : circuit (recallSlot s n) = circuit s := by
  unfold recallSlot
  rw [reportEnded_circuit, reportEnded_circuit]; rfl
theorem recallSlots_circuit (s : State) : circuit (recallSlots s) = circuit s := circuit_foldl recallSlot_circuit _ s
theorem recallChannels_circuit (s : State) : circuit (recallChannels s) = circuit s := rfl

/-- A RECALL replaces the configuration before the arms act on it (12 R182). -/
theorem replaceTables_keepsCircuit (t : Tables) (s : State) : KeepsCircuit s (replaceTables t s) := by
  intro ok
  unfold replaceTables
  dsimp only
  rw [weighAck_circuit, resetCapture_circuit]
  refine actOnFitted_ok ?_
  rw [recallChannels_circuit, recallSlots_circuit, removeSenders_circuit]
  exact ok

theorem recallDone_keepsCircuit (sum) (s : State) : KeepsCircuit s (recallDone sum s) := by
  have ended : KeepsCircuit s (endOperation s) := .of_circuit rfl
  unfold recallDone
  dsimp only
  generalize endOperation s = u at ended
  split
  · exact ended.trans ((replaceTables_keepsCircuit _ u).trans (.of_circuit (deferredReply_circuit _ _)))
  · exact ended.trans (.of_circuit (deferredReply_circuit _ _))
theorem startRecall_keepsCircuit (s : State) : KeepsCircuit s (startRecall s) := by
  unfold startRecall
  split
  · exact .of_circuit (deferredReply_circuit _ _)
  · exact .ite (recallDone_keepsCircuit _ s) (.of_circuit rfl)
theorem readDone_keepsCircuit (r) (s : State) : KeepsCircuit s (readDone r s) :=
  .ite (.of_circuit rfl) (recallDone_keepsCircuit _ s)

theorem commitWith_keepsCircuit {α : Type} (n index len : Nat) (decode : List Byte → Option α)
    (accept : Fin n → α → State → Judged) (s : State) (h : ∀ i x, KeepsCircuit s (accept i x s).2) :
    KeepsCircuit s (commitWith n index len decode accept s).2 := by
  rcases commitWith_cases n index len decode accept s with e | ⟨i, x, -, e⟩
  · rw [e]; exact .refl s
  · rw [e]; exact h i x

theorem acceptMatch_circuit (i e) (s : State) : circuit (acceptMatch i e s).2 = circuit s := by
  unfold acceptMatch
  split
  · exact (weighAck_circuit _).trans (removeSenders_circuit _ _ _)
  · rfl
theorem acceptSlot_circuit (i c) (s : State) : circuit (acceptSlot i c s).2 = circuit s := by
  unfold acceptSlot
  split
  · exact (weighAck_circuit _).trans <| (reportEnded_circuit _ _ _).trans <| (reportEnded_circuit _ _ _).trans <|
      removeSenders_circuit _ _ _
  · rfl

/-- Only the COMMIT of ARM_CONFIG touches the circuit. -/
theorem commitItem_keepsCircuit (code index) (s : State) : KeepsCircuit s (commitItem code index s).2 := by
  unfold commitItem
  split
  case h_1 => exact commitWith_keepsCircuit _ _ _ _ _ s fun i e => .of_circuit (acceptMatch_circuit i e s)
  case h_2 => exact commitWith_keepsCircuit _ _ _ _ _ s fun i c => .of_circuit (acceptSlot_circuit i c s)
  case h_3 => exact commitWith_keepsCircuit _ _ _ _ _ s fun _ _ => .of_circuit (weighAck_circuit _)
  case h_6 => exact commitWith_keepsCircuit _ _ _ _ _ s fun _ _ ok => actOnFitted_ok ok
  case h_7 | h_8 =>
    refine commitWith_keepsCircuit _ _ _ _ _ s fun i x => ?_
    dsimp only
    split <;> exact .of_circuit rfl
  case h_10 => exact commitWith_keepsCircuit _ _ _ _ _ s fun _ _ => .of_circuit (resetCapture_circuit _)
  case h_4 | h_5 | h_9 | h_11 | h_12 => exact commitWith_keepsCircuit _ _ _ _ _ s fun _ _ => .of_circuit rfl
  all_goals exact .refl s

theorem openConfig_circuit (s : State) : circuit (openConfig s).2 = circuit s := by
  unfold openConfig
  split
  · rfl
  · split
    · rfl
    · split
      · rfl
      · exact enterHeld_circuit _
theorem readItem_circuit (c i k) (s : State) : circuit (readItem c i k s).2.2 = circuit s := by
  unfold readItem readKind
  split
  · split
    · split
      · rfl
      · split
        · split <;> rfl
        · rfl
    · rfl
  · rfl
theorem stageItem_circuit (o d) (s : State) : circuit (stageItem o d s).2 = circuit s := by
  unfold stageItem; split <;> rfl
theorem channelControl_circuit (c a) (s : State) : circuit (channelControl c a s).2 = circuit s := by
  unfold channelControl
  split
  case h_3 => exact circuit_of_sends (giveTrigger_sends _ _)
  all_goals rfl
theorem restartRequest_circuit (c t) (s : State) : circuit (restartRequest c t s) = circuit s :=
  circuit_ite (makeReply_circuit _ _) (answer_circuit _ _ _ _ _)
theorem dropSenders_circuit (slot) (s : State) : circuit (dropSenders slot s).2 = circuit s := by
  have dropped (p r) : circuit (weighAck (removeSenders p r s)) = circuit s :=
    (weighAck_circuit _).trans (removeSenders_circuit s p r)
  unfold dropSenders
  split
  · exact dropped _ _
  · split
    · exact dropped _ _
    · rfl
theorem startStore_circuit (s : State) : circuit (startStore s) = circuit s :=
  circuit_ite (deferredReply_circuit _ _) rfl
theorem storeDone_circuit (r) (s : State) : circuit (storeDone r s) = circuit s :=
  (deferredReply_circuit _ _).trans (reportEnded_circuit _ _ _)
theorem storeStep_circuit (b r) (s : State) : circuit (storeStep b r s) = circuit s :=
  circuit_ite (circuit_ite (storeDone_circuit r s) rfl) ((deferredReply_circuit _ _).trans (failedStep_circuit _ _))

theorem answerJudged_keepsCircuit {j : Judged} {s : State} (c t) (h : KeepsCircuit s j.2) :
    KeepsCircuit s (answerJudged c t j) := h.trans (.of_circuit (answer_circuit _ _ _ _ _))

theorem carryOutRequest_keepsCircuit (c t d) (s : State) : KeepsCircuit s (carryOutRequest c t d s) := by
  unfold carryOutRequest
  split
  · exact answerJudged_keepsCircuit _ _ (.of_circuit (openConfig_circuit s))
  · exact .of_circuit (answer_circuit _ _ _ _ _)
  · exact .of_circuit ((answer_circuit _ _ _ _ _).trans (readItem_circuit _ _ _ s))
  · exact answerJudged_keepsCircuit _ _ (.of_circuit (stageItem_circuit _ _ s))
  · exact answerJudged_keepsCircuit _ _ (commitItem_keepsCircuit _ _ s)
  · exact .of_circuit (startStore_circuit _)
  · exact KeepsCircuit.trans (t := { s with service.deferred := some (c, t) }) (.of_circuit rfl)
      (startRecall_keepsCircuit _)
  · split <;> exact .of_circuit (answer_circuit _ _ _ _ _)
  · exact .of_circuit ((answer_circuit _ _ _ _ _).trans (acknowledge_circuit s))
  · exact answerJudged_keepsCircuit _ _ (.of_circuit (channelControl_circuit _ _ s))
  · exact .of_circuit (restartRequest_circuit _ _ s)
  · exact .of_circuit (answer_circuit _ _ _ _ _)
  · exact answerJudged_keepsCircuit _ _ (.of_circuit (dropSenders_circuit _ s))
  · exact .refl s

theorem serviceRequest_keepsCircuit (d) (s : State) : KeepsCircuit s (serviceRequest d s) := by
  have restarted : circuit (restartInactivity s) = circuit s := circuit_ite rfl rfl
  unfold serviceRequest
  split
  · exact .refl s
  · refine (KeepsCircuit.of_circuit restarted).trans (.ite (.refl _) ?_)
    split
    · exact .of_circuit (answer_circuit _ _ _ _ _)
    · exact carryOutRequest_keepsCircuit _ _ _ _

/-! ## Every step -/

/-- An answer whose next state keeps the invariant. -/
def AnswerKeepsCircuit (s : State) (a : Answer) : Prop := ∀ t, a = .next t → KeepsCircuit s t

namespace AnswerKeepsCircuit

theorem next {s t : State} (h : KeepsCircuit s t) : AnswerKeepsCircuit s (.next t) := by rintro _ ⟨⟩; exact h
theorem ite {s : State} {a b : Answer} {c : Prop} [Decidable c] (h : AnswerKeepsCircuit s a)
    (k : AnswerKeepsCircuit s b) : AnswerKeepsCircuit s (if c then a else b) := by
  split
  · exact h
  · exact k
theorem stay (s : State) : AnswerKeepsCircuit s (.next s) := .next (.refl s)

end AnswerKeepsCircuit

theorem advance_keepsCircuit (n) (s : State) : KeepsCircuit s (advance n s) := .of_circuit (advance_circuit s n)

theorem happens_keepsCircuit {body : State → State} (h : ∀ s, KeepsCircuit s (body s)) (c) (s : State) :
    AnswerKeepsCircuit s (happens c body s) := .ite (.next (event_keepsCircuit (h _))) (.stay s)
/-- The body of an expiry need keep the invariant only where the timer has run. -/
theorem expires_keepsCircuit {body : State → State} (t) (s : State)
    (h : ∀ r, t = some r → KeepsCircuit (s.openedAt r) (body (s.openedAt r))) :
    AnswerKeepsCircuit s (expires t body s) := by
  refine .ite ?_ (.stay s)
  split
  · next r => exact .next ((advance_keepsCircuit _ s).trans (event_keepsCircuit (h r rfl)))
  · exact .stay s
theorem operationEvent_keepsCircuit {body : State → State} (h : ∀ s, KeepsCircuit s (body s)) (t) (s : State) :
    AnswerKeepsCircuit s (operationEvent t body s) := by
  refine .ite ?_ (.stay s)
  split
  · exact .next ((advance_keepsCircuit _ s).trans ((event_keepsCircuit (h _)).trans (sleepIfDue_keepsCircuit _)))
  · exact .stay s

/-- An event that leaves the circuit. -/
theorem happens_apart {body : State → State} (h : ∀ s, circuit (body s) = circuit s) (c) (s : State) :
    AnswerKeepsCircuit s (happens c body s) := happens_keepsCircuit (fun s => .of_circuit (h s)) c s
theorem expires_apart {body : State → State} (h : ∀ s, circuit (body s) = circuit s) (t) (s : State) :
    AnswerKeepsCircuit s (expires t body s) := expires_keepsCircuit t s fun _ _ => .of_circuit (h _)

/-- A motion timer that runs before time passes runs at its expiry. -/
theorem execMotionTimerExpiry_keepsCircuit (a) (s : State) : AnswerKeepsCircuit s (execMotionTimerExpiry a s) := by
  refine expires_keepsCircuit _ s fun r runs => motionExpired_keepsCircuit ?_
  have timed : (circuit (s.openedAt r)).timed a = (circuit s).timed a :=
    congrFun (congrArg Circuit.timed (advance_circuit s r)) a
  exact Option.isSome_iff_ne_none.1 (timed.trans (by show (s.arms.get a).motionT.isSome = true; rw [runs]; rfl))
theorem execFrameReceived_keepsCircuit (q f) (s : State) : AnswerKeepsCircuit s (execFrameReceived q f s) :=
  .ite (happens_keepsCircuit (fun _ => .ite (serviceRequest_keepsCircuit _ _) (.of_circuit (framePath_circuit _ _ _)))
    _ s) fun _ e => nomatch e
theorem request_keepsCircuit (d) (s : State) : AnswerKeepsCircuit s (request d s) :=
  happens_keepsCircuit (serviceRequest_keepsCircuit d) _ s
theorem execFrameSent_keepsCircuit (q) (s : State) : AnswerKeepsCircuit s (execFrameSent q s) := by
  have sent (r) (u : State) : KeepsCircuit u (frameSentBody q r u) :=
    (KeepsCircuit.of_circuit (sentBody_circuit u q r)).trans (completeAll_keepsCircuit _)
  refine .ite ?_ (.stay s)
  split
  · exact .next ((event_keepsCircuit (sent _ _)).trans (restartIfDue_keepsCircuit _))
  · exact .stay s
theorem execWaitingHolderPlaced_keepsCircuit (q) (s : State) : AnswerKeepsCircuit s (execWaitingHolderPlaced q s) :=
  happens_keepsCircuit (body := fun s => completeAll ((handPlace q s).onPort q PortUnit.offerLink))
    (fun u => KeepsCircuit.trans (t := (handPlace q u).onPort q PortUnit.offerLink)
      (.of_circuit (handPlace_circuit u q)) (completeAll_keepsCircuit _)) _ s
theorem execLinkLost_keepsCircuit (q) (s : State) : AnswerKeepsCircuit s (execLinkLost q s) :=
  .ite (.next ((event_keepsCircuit (linkLostBody_keepsCircuit q _)).trans (restartIfDue_keepsCircuit _))) (.stay s)
theorem execPulseEdge_keepsCircuit (ch d k) (s : State) : AnswerKeepsCircuit s (execPulseEdge ch d k s) := by
  have late (u : State) : KeepsCircuit u (event (standstillExpired ch) u) :=
    event_apart (body := standstillExpired ch) (fun _ => captureUpdate_circuit _) u
  exact .ite (.ite (.next ((advance_keepsCircuit _ s).trans (.trans (.ite (late _) (.refl _))
    (event_apart (fun u => edge_circuit u ch d k) _)))) (.next (advance_keepsCircuit _ s))) (.stay s)
theorem execShutdownTimerExpiry_keepsCircuit (s : State) : AnswerKeepsCircuit s (execShutdownTimerExpiry s) := by
  refine .ite ?_ (.stay s)
  split
  · exact .next ((advance_keepsCircuit _ s).trans ((event_apart (body := shutdownExpired) (fun _ => rfl) _).trans
      (sleepIfDue_keepsCircuit _)))
  · exact .stay s
theorem execColdStart_keepsCircuit (s : State) : AnswerKeepsCircuit s (execColdStart s) :=
  .next fun _ => finish_keepsCircuit _ (coldStart_ok _)
theorem execWake_keepsCircuit (s : State) : AnswerKeepsCircuit s (execWake s) :=
  .ite (.next (KeepsCircuit.trans (t := { s with ignLine := true }) (.of_circuit rfl)
    (event_keepsCircuit (warmRestart_keepsCircuit _ _)))) (.next (.of_circuit rfl))
theorem execIgnitionShutdown_keepsCircuit (s : State) : AnswerKeepsCircuit s (execIgnitionShutdown s) :=
  .ite (.ite (.next (KeepsCircuit.trans (t := { s with ignLine := false }) (.of_circuit rfl)
    (event_keepsCircuit (startShutdown_keepsCircuit _)))) (.next (.of_circuit rfl))) (.stay s)
theorem execStorePageStep_keepsCircuit (b) (s : State) : AnswerKeepsCircuit s (execStorePageStep b s) := by
  unfold execStorePageStep
  split
  · exact operationEvent_keepsCircuit (fun u => .of_circuit (storeStep_circuit b _ u)) _ s
  · exact .stay s
theorem execStoreCompletion_keepsCircuit (s : State) : AnswerKeepsCircuit s (execStoreCompletion s) := by
  unfold execStoreCompletion
  split
  · exact .ite (operationEvent_keepsCircuit (fun u => .of_circuit (storeDone_circuit _ u)) _ s) (.stay s)
  · exact .stay s
theorem execRecallPageRead_keepsCircuit (s : State) : AnswerKeepsCircuit s (execRecallPageRead s) := by
  unfold execRecallPageRead
  split
  · exact operationEvent_keepsCircuit (readDone_keepsCircuit _) _ s
  · exact .stay s
theorem execRecallCompletion_keepsCircuit (s : State) : AnswerKeepsCircuit s (execRecallCompletion s) := by
  unfold execRecallCompletion
  split
  · exact .ite (.stay s) (operationEvent_keepsCircuit (readDone_keepsCircuit _) _ s)
  · exact .stay s

/-- Every command keeps the invariant. -/
theorem exec_keepsCircuit (i : Instr) (s : State) : AnswerKeepsCircuit s (exec i s) := by
  cases i
  case frameReceived q f => exact execFrameReceived_keepsCircuit q f s
  case frameSent q => exact execFrameSent_keepsCircuit q s
  case waitingHolderPlaced q => exact execWaitingHolderPlaced_keepsCircuit q s
  case linkLost q => exact execLinkLost_keepsCircuit q s
  case linkRestored q => exact happens_apart (body := linkRestoredBody q) (fun _ => reportEnded_circuit _ _ _) _ s
  case pulseEdge ch d k => exact execPulseEdge_keepsCircuit ch d k s
  case windowTimerExpiry ch => exact expires_apart (body := windowExpired ch) (fun _ => captureUpdate_circuit _) _ s
  case standstillTimerExpiry ch =>
    exact expires_apart (body := standstillExpired ch) (fun _ => captureUpdate_circuit _) _ s
  case disagreementTimerExpiry =>
    exact expires_apart (body := disagreementExpired) (fun _ => reportBegun_circuit _ _ _ _) _ s
  case lossTimerExpiry ch =>
    exact expires_apart (body := lossExpired ch)
      (fun _ => (captureUpdate_circuit _).trans (reportBegun_circuit _ _ _ _)) _ s
  case returnTimerExpiry ch =>
    exact expires_apart (body := returnExpired ch)
      (fun _ => (captureUpdate_circuit _).trans (reportEnded_circuit _ _ _)) _ s
  case freshnessTimerExpiry n => exact expires_apart (fun u => freshnessExpired_circuit u n) _ s
  case senderTimerExpiry p => exact expires_apart (fun u => senderExpired_circuit u p) _ s
  case silentTimeEnd p => exact expires_apart (fun u => (weighAck_circuit _).trans (removePlace_circuit u p)) _ s
  case governorPeriod => exact expires_apart governorBody_circuit _ s
  case overspeedTimeLimit => exact happens_apart (body := overspeedBegins) (fun _ => reportBegun_circuit _ _ _ _) _ s
  case armPeriod => exact expires_keepsCircuit _ s fun _ _ => armPeriodBody_keepsCircuit _
  case motionTimerExpiry a => exact execMotionTimerExpiry_keepsCircuit a s
  case floatTimerExpiry a => exact expires_apart (floatExpired_circuit a) _ s
  case waitTimerExpiry a => exact expires_apart (waitExpired_circuit a) _ s
  case allocatorPeriod => exact expires_apart allocatorBody_circuit _ s
  case sprayPeriod => exact expires_apart sprayBody_circuit _ s
  case lingerEnd => exact happens_apart (body := onSpray endLinger) (fun _ => rfl) _ s
  case intervalTimerExpiry ch =>
    exact expires_apart (body := intervalExpired ch) (fun _ => circuit_of_sends (giveTrigger_sends _ _)) _ s
  case sendCompletion ch => exact happens_apart (fun u => circuit_of_sends (completeIfDone_sends ch u)) _ s
  case cutoffActive =>
    exact .ite (.stay s) (.ite (.next (event_apart cutoffActiveBody_circuit s)) (.next (.of_circuit rfl)))
  case cutoffInactive =>
    exact .ite (.stay s) (.ite (.next (event_apart cutoffInactiveBody_circuit s)) (.next (.of_circuit rfl)))
  case releaseTimerExpiry => exact expires_apart weighRelease_circuit _ s
  case detectionTimeExpiry k n => exact expires_apart (fun u => reportEnded_circuit u k n) _ s
  case ignitionShutdown => exact execIgnitionShutdown_keepsCircuit s
  case shutdownTimerExpiry => exact execShutdownTimerExpiry_keepsCircuit s
  case sleepEntry => exact .next (sleepIfDue_keepsCircuit s)
  case wake => exact execWake_keepsCircuit s
  case coldStart => exact execColdStart_keepsCircuit s
  case serviceRestart => exact .next (restartIfDue_keepsCircuit s)
  case inactivityTimerExpiry => exact expires_apart (body := closeSession) (fun _ => rfl) _ s
  case storePageStep b => exact execStorePageStep_keepsCircuit b s
  case storeCompletion => exact execStoreCompletion_keepsCircuit s
  case recallPageRead => exact execRecallPageRead_keepsCircuit s
  case recallCompletion => exact execRecallCompletion_keepsCircuit s
  case powerLoss => exact .ite (.stay s) (.next (.of_circuit (losePower_circuit s)))
  all_goals exact request_keepsCircuit _ s

/-- The idle step takes a command that is due, or lets time pass. -/
theorem idle_keepsCircuit (s : State) : AnswerKeepsCircuit s (idle s) := by
  refine .ite ?_ (.stay s)
  split
  · next i _ =>
    exact fun t e => KeepsCircuit.trans (t := { s with choices := s.choices + 1 }) (.of_circuit rfl)
      (exec_keepsCircuit i _ t e)
  · exact .next (.of_circuit (passTime_circuit s 1))

/-- Settles O9: an arm's moves in the circuit are to rest, to a place in the queue and to the grant, each of which keeps
it; every other event leaves the circuit, empties it, or has the arms act on changed fitted flags. -/
theorem stepKeepsLiftCircuit : Obligations.StepKeepsLiftCircuit := by
  unfold Obligations.StepKeepsLiftCircuit
  intro s t ok e
  refine liftCircuitOk_iff.2 ?_
  have ok := liftCircuitOk_iff.1 ok
  unfold step at e
  split at e
  · next i rest _ => exact exec_keepsCircuit i { s with pending := rest } t e (KeepsCircuit.of_circuit (s := s) rfl ok)
  · exact idle_keepsCircuit s t e ok

end Sys2Proof.LiftCircuit
end

section
/-! SUPPORT. What the arm sequencer changes, and the expiries of an arm's timers: O39. -/

namespace Sys2Proof.LiftCircuit
open Sys2Proof Sys2Proof.Machine Sys2Proof.Signals

/-! ## Footprint of the arm sequencer -/

/-- Only arms, lift circuit, doser, supervisor and marks differ. -/
def ArmsOnly (s t : State) : Prop :=
  t = { s with arms := t.arms, lift := t.lift, spray := t.spray, faults := t.faults, ev := t.ev }

theorem ArmsOnly.trans {s t u : State} (h : ArmsOnly s t) (k : ArmsOnly t u) : ArmsOnly s u := by
  unfold ArmsOnly at *; rw [k, h]

/-- What the stages of the sequencer do: only the arms, the lift circuit but not its period timer, supervisor and marks
differ, and of the fault list all that a reported end keeps holds as before. -/
structure Sequences (s t : State) : Prop where
  only : ArmsOnly s t
  timer : t.lift.timer = s.lift.timer
  spray : t.spray = s.spray
  ended : ∀ P : Faults → Prop, (∀ k n (v : State), P v.faults → P (reportEnded k n v).faults) → P s.faults → P t.faults

namespace Sequences

theorem refl (s : State) : Sequences s s := ⟨rfl, rfl, rfl, fun _ _ => id⟩
theorem trans {s t u : State} (h : Sequences s t) (k : Sequences t u) : Sequences s u :=
  ⟨h.only.trans k.only, k.timer.trans h.timer, k.spray.trans h.spray, fun P e => k.ended P e ∘ h.ended P e⟩

/-- Arms, marks and what of the lift circuit is not its timer may be written. -/
theorem of_write {s t : State} (frame : t = { s with arms := t.arms, lift := t.lift, ev := t.ev })
    (timer : t.lift.timer = s.lift.timer) : Sequences s t :=
  ⟨by unfold ArmsOnly; rw [frame], timer, by rw [frame], fun _ _ => by rw [frame]; exact id⟩
theorem of_ended (k n) (s : State) : Sequences s (reportEnded k n s) := by
  have reports := reportEnded_reports k n s
  refine ⟨?_, congrArg Lift.timer reports.lift, reports.spray, fun _ e => e k n s⟩
  unfold Reports at reports
  unfold ArmsOnly
  rw [reports]

section
variable {s t : State} (h : Sequences s t)
include h
theorem frame : t = { s with arms := t.arms, lift := t.lift, spray := t.spray, faults := t.faults, ev := t.ev } :=
  h.only
theorem tables : t.tables = s.tables := by rw [h.frame]
theorem armCfg (a) : t.armCfg a = s.armCfg a := by unfold State.armCfg; rw [h.tables]
theorem role (x) : t.role x = s.role x := by rw [h.frame]; rfl
theorem profile : t.profile = s.profile := by rw [h.frame]; rfl
theorem shutdown : t.shutdown = s.shutdown := by rw [h.frame]
theorem alloc : t.alloc = s.alloc := by rw [h.frame]
theorem gov : t.gov = s.gov := by rw [h.frame]
theorem service : t.service = s.service := by rw [h.frame]
theorem level : t.faults.level = s.faults.level :=
  h.ended (fun f => f.level = s.faults.level) (fun k n v e => (reportEnded_level k n v).trans e) rfl
theorem gone {k n} (g : Gone s.faults k n) : Gone t.faults k n :=
  h.ended (fun f => Gone f k n) (fun k' n' v => reportEnded_gone k' n' v) g
theorem listOk (ok : FaultList.ListOk s.faults) : FaultList.ListOk t.faults :=
  h.ended FaultList.ListOk (fun k n _ => FaultList.reportEnded_ok k n) ok
end

end Sequences

/-! ## The grant (06 R95) -/

/-- What a grant asks for beside a free circuit (06 R95). -/
def GrantAllowed (s : State) : Prop :=
  s.faults.level < 3 ∧ s.shutdown.hold = false ∧ 600 ≤ (s.role .engineSpeed).value
  ∧ s.tables.arms.liftFlow ≤ s.alloc.fav

theorem mayGrant_iff_allowed {s : State} : mayGrant s = true ↔ s.lift.holder = none ∧ GrantAllowed s := mayGrant_iff

theorem leaveQueue_sequences (a : Arm) (s : State) : Sequences s (leaveQueue a s) :=
  Sequences.trans (t := { s with
      arms := s.arms.set a { s.arms.get a with waitT := none, starved := false }, lift.queue := s.lift.queue.erase a })
    (.of_write rfl rfl) (.of_ended _ _ _)
theorem grantTo_sequences (a : Arm) (s : State) : Sequences s (grantTo a s) :=
  (leaveQueue_sequences a s).trans (.of_write rfl rfl)

/-- A grant weighed is made to the head of the queue, or nothing changes. -/
theorem weighGrant_cases (s : State) :
    (weighGrant s = s ∧ (s.lift.queue = [] ∨ ¬mayGrant s = true))
    ∨ ∃ a rest, s.lift.queue = a :: rest ∧ mayGrant s = true ∧ weighGrant s = grantTo a s := by
  unfold weighGrant
  split
  · next empty => exact .inl ⟨rfl, .inl empty⟩
  · next a rest queue =>
    split
    · next may => exact .inr ⟨a, rest, queue, may, rfl⟩
    · next no => exact .inl ⟨rfl, .inr no⟩
theorem weighGrant_of_empty {s : State} (h : s.lift.queue = []) : weighGrant s = s := by unfold weighGrant; rw [h]
theorem weighGrant_of_not {s : State} (h : ¬mayGrant s = true) : weighGrant s = s := by
  rcases weighGrant_cases s with ⟨same, -⟩ | ⟨_, _, _, may, _⟩
  · exact same
  · exact absurd may h
theorem weighGrant_of_head {s : State} {a : Arm} {rest : List Arm} (queue : s.lift.queue = a :: rest)
    (may : mayGrant s = true) : weighGrant s = grantTo a s := by
  unfold weighGrant
  rw [queue]
  exact if_pos may

theorem weighGrant_sequences (s : State) : Sequences s (weighGrant s) := by
  rcases weighGrant_cases s with ⟨same, -⟩ | ⟨a, _, -, -, granted⟩
  · rw [same]; exact .refl s
  · rw [granted]; exact grantTo_sequences a s

theorem grantTo_get_same (a : Arm) (s : State) : (grantTo a s).arms.get a = grantedRec (s.arms.get a) := by
  rw [grantTo_arms, PerArm.get_set_same]
theorem grantTo_get_other {a b : Arm} (s : State) (other : b ≠ a) : (grantTo a s).arms.get b = s.arms.get b := by
  rw [grantTo_arms, PerArm.get_set_other _ _ other]
/-- An arm that is not at the head of the queue keeps its record when a grant is weighed. -/
theorem weighGrant_get {s : State} {b : Arm} (behind : s.lift.queue.head? ≠ some b) :
    (weighGrant s).arms.get b = s.arms.get b := by
  rcases weighGrant_cases s with ⟨same, -⟩ | ⟨a, rest, queue, -, granted⟩
  · rw [same]
  · rw [granted]
    exact grantTo_get_other s fun e => behind (by rw [queue, e]; rfl)

/-! ## The motion timer (06 R99) -/

/-- A record that a general place holds LATCHED, of a kind that clears by ACK. -/
def LatchedAt (k : Kind) (n : Nat) (sev : Fin 4) (f : Faults) : Prop :=
  ∃ (i : Fin 15) (x : FaultRec), f.places[i] = some x ∧ x.kind = k ∧ x.subject = n ∧ x.severity = sev ∧ x.ack = true
    ∧ x.latched = true

theorem ended_of_ack {x : FaultRec} (ack : x.ack = true) : x.ended = some { x with latched := true } := if_pos ack

/-- A reported end leaves LATCHED records in the list. -/
theorem reportEnded_latchedAt {k n sev} (k' n') (s : State) (h : LatchedAt k n sev s.faults) :
    LatchedAt k n sev (reportEnded k' n' s).faults := by
  obtain ⟨i, x, here, kind, subject, severity, ack, latched⟩ := h
  unfold reportEnded
  dsimp only
  split
  · next j _ =>
    by_cases e : j = i
    · subst e
      refine ⟨j, { x with latched := true }, ?_, kind, subject, severity, ack, rfl⟩
      show (s.faults.places.set j (s.faults.places[j].bind FaultRec.ended))[j] = _
      rw [here, Option.bind_some, ended_of_ack ack]
      simp
    · have ne : j.val ≠ i.val := fun d => e (Fin.ext d)
      exact ⟨i, x, by simpa [Faults.settled, Vector.getElem_set_ne, ne] using here, kind, subject, severity, ack,
        latched⟩
  · split <;> exact ⟨i, x, here, kind, subject, severity, ack, latched⟩

/-- A condition that begins and ends at one event and clears by ACK takes a free place, LATCHED. -/
theorem reportOnce_latchedAt {k n sev} {s : State} (ack : k.ack = true) (absent : s.faults.find k n = none)
    (apart : s.faults.mergedHas k n = false) (free : ∃ i : Fin 15, s.faults.places[i] = none) :
    LatchedAt k n sev (reportOnce k n sev s).faults := by
  obtain ⟨i, placed⟩ : ∃ i, vfind s.faults.places (·.isNone) = some i := by
    obtain ⟨j, empty⟩ := free
    refine Option.ne_none_iff_exists'.1 fun none => ?_
    have taken := vfind_none none j
    rw [empty] at taken
    cases taken
  let begun : State := { s with faults := s.faults.settled k n }
  have entered : reportBegun k n sev s = placeRecord i k n sev begun := by
    unfold reportBegun
    dsimp only
    rw [settled_find, absent]
    dsimp only
    rw [settled_mergedHas, apart, if_neg Bool.false_ne_true]
    unfold enterRecord
    rw [show (s.faults.settled k n).places = s.faults.places from rfl, placed]
  have new : (placeRecord i k n sev begun).faults.places[i] = some (newRecord begun k n sev) := by
    simp [placeRecord, markFaultChange]
  unfold reportOnce
  rw [entered]
  unfold reportEnded
  dsimp only
  rw [settled_find]
  cases found : (placeRecord i k n sev begun).faults.find k n with
  | none => exact absurd ⟨rfl, rfl⟩ (find_none_iff.1 found i _ new)
  | some j =>
    obtain ⟨x, here, is⟩ := find_some found
    have same : j = i := by
      rcases FaultList.place_of_set (v := s.faults.places) (i := i) (o := some (newRecord begun k n sev)) here with
        ⟨e, -⟩ | ⟨-, there⟩
      · exact e.symm
      · exact absurd is (find_none_iff.1 absent j x there)
    subst same
    refine ⟨j, { newRecord begun k n sev with latched := true }, ?_, rfl, rfl, rfl, ack, rfl⟩
    show ((placeRecord j k n sev begun).faults.places.set j
      ((placeRecord j k n sev begun).faults.places[j].bind FaultRec.ended))[j] = _
    rw [new, Option.bind_some, ended_of_ack (x := newRecord begun k n sev) ack]
    simp

/-- The arm FAULTED, the fault reported and its bank closed, before the grant is weighed. -/
def faulted (a : Arm) (s : State) : State :=
  banksFollowArms (reportOnce .armStuck (armNumber a) armStuckSeverity
    (putArm a { s.arms.get a with state := .faulted, valve := 0, motionT := none } { s with lift.holder := none }))

section
variable (a : Arm) (s : State)

theorem motionExpired_eq : motionExpired a s = weighGrant (faulted a s) := rfl

theorem closeBanks_frame (c) (s : State) : closeBanks c s = { s with spray := (closeBanks c s).spray } := by
  unfold closeBanks
  dsimp only
  split <;> rfl
theorem faulted_frame : faulted a s = { s with
    arms := s.arms.set a { s.arms.get a with state := .faulted, valve := 0, motionT := none }
    lift.holder := none, spray := (faulted a s).spray, faults := (faulted a s).faults, ev := (faulted a s).ev } := by
  have reports := reportOnce_reports .armStuck (armNumber a) armStuckSeverity
    (putArm a { s.arms.get a with state := .faulted, valve := 0, motionT := none } { s with lift.holder := none })
  unfold Reports at reports
  unfold faulted banksFollowArms
  rw [closeBanks_frame, reports]
  rfl
theorem faulted_faults : (faulted a s).faults = (reportOnce .armStuck (armNumber a) armStuckSeverity
    (putArm a { s.arms.get a with state := .faulted, valve := 0, motionT := none }
      { s with lift.holder := none })).faults := by
  unfold faulted banksFollowArms
  rw [closeBanks_frame]
theorem faulted_level : (faulted a s).faults.level = s.faults.level := by
  rw [faulted_faults]
  unfold reportOnce
  rw [reportEnded_level, Profiles.reportBegun_level]
  rfl

/-- With the holder gone the grant is made by level, shutdown hold, engine speed and available flow. -/
theorem faulted_mayGrant : mayGrant (faulted a s) = true ↔ GrantAllowed s := by
  rw [mayGrant_iff_allowed, GrantAllowed, faulted_level, faulted_frame]
  exact and_iff_right rfl

theorem faulted_get_same : (faulted a s).arms.get a =
    { s.arms.get a with state := .faulted, valve := 0, motionT := none } := by
  rw [faulted_frame]; exact PerArm.get_set_same ..
theorem faulted_get_other {b : Arm} (other : b ≠ a) : (faulted a s).arms.get b = s.arms.get b := by
  rw [faulted_frame]; exact PerArm.get_set_other _ _ other
theorem faulted_lift : (faulted a s).lift = { s.lift with holder := none } := by rw [faulted_frame]
theorem faulted_queue : (faulted a s).lift.queue = s.lift.queue := by rw [faulted_lift]

end

section
variable {a : Arm} {s : State}

/-- The expired arm is FAULTED, unless the queue wrongly had it at its head. -/
theorem motionExpired_get (behind : s.lift.queue.head? ≠ some a) : (motionExpired a s).arms.get a =
    { s.arms.get a with state := .faulted, valve := 0, motionT := none } := by
  rw [motionExpired_eq, weighGrant_get (by rwa [faulted_queue]), faulted_get_same]

theorem motionExpired_ungranted (no : s.lift.queue = [] ∨ ¬GrantAllowed s) : motionExpired a s = faulted a s := by
  rw [motionExpired_eq]
  rcases no with empty | no
  · exact weighGrant_of_empty ((faulted_queue a s).trans empty)
  · exact weighGrant_of_not fun may => no ((faulted_mayGrant a s).1 may)

theorem motionExpired_granted {b : Arm} {rest : List Arm} (waits : s.lift.queue = b :: rest) (may : GrantAllowed s) :
    motionExpired a s = grantTo b (faulted a s) := by
  rw [motionExpired_eq]
  exact weighGrant_of_head ((faulted_queue a s).trans waits) ((faulted_mayGrant a s).2 may)

/-- ARM_STUCK stands LATCHED in the list when it is new and a place is free. -/
theorem motionExpired_latched (absent : s.faults.find .armStuck (armNumber a) = none)
    (apart : s.faults.mergedHas .armStuck (armNumber a) = false) (free : ∃ i : Fin 15, s.faults.places[i] = none) :
    LatchedAt .armStuck (armNumber a) 2 (motionExpired a s).faults := by
  have latched : LatchedAt .armStuck (armNumber a) 2 (faulted a s).faults := by
    rw [faulted_faults]
    exact reportOnce_latchedAt rfl absent apart free
  exact (weighGrant_sequences (faulted a s)).ended _ (fun k n v => reportEnded_latchedAt k n v) latched

theorem motionExpired_armsOnly : ArmsOnly s (motionExpired a s) :=
  ArmsOnly.trans (by unfold ArmsOnly; rw [faulted_frame]) (weighGrant_sequences (faulted a s)).only

end

/-! ## O39 -/

theorem openedAt_read (s : State) (r : Nat) (b : Arm) : ((s.openedAt r).arms.get b).read = (s.arms.get b).read := by
  show ((advance r s).arms.get b).read = _
  rw [advance_arm]
theorem openedAt_queue (s : State) (r : Nat) : (s.openedAt r).lift.queue = s.lift.queue := advance_lift_queue r s
theorem openedAt_places (s : State) (r : Nat) : (s.openedAt r).faults.places = s.faults.places :=
  advance_faults_places r s
theorem openedAt_aggregate (s : State) (r : Nat) : (s.openedAt r).faults.aggregate = s.faults.aggregate :=
  advance_faults_aggregate r s
theorem openedAt_grantAllowed (s : State) (r : Nat) : GrantAllowed (s.openedAt r) ↔ GrantAllowed s := by
  unfold GrantAllowed
  rw [Profiles.openedAt_level, openedAt_role, openedAt_tables,
    show (s.openedAt r).shutdown.hold = _ from advance_shutdown_hold r s,
    show (s.openedAt r).alloc.fav = _ from advance_alloc_fav r s]

/-- Settles O39: the grant that ends a motion timer's expiry is weighed on the state with the arm FAULTED, whose record
in the list no later end removes; the other two expiries are the reports themselves. -/
theorem armTimersEnd : Obligations.ArmTimersEnd := by
  unfold Obligations.ArmTimersEnd
  constructor
  · intro s r a run timer
    refine .of (expires_of run timer) ?_
    have queue := openedAt_queue s r
    have allowed := openedAt_grantAllowed s r
    refine ⟨fun behind => motionExpired_get (queue ▸ behind), fun no => ?_, fun b rest waits other may => ?_,
      fun absent apart free => ?_, motionExpired_armsOnly⟩
    · rw [motionExpired_ungranted (no.imp queue.trans fun no may => no (allowed.1 may))]
      exact ⟨faulted_lift .., fun b other => faulted_get_other _ _ other⟩
    · rw [motionExpired_granted (queue.trans waits) (allowed.2 may)]
      refine ⟨?_, ?_, fun b' off_a off_b => ?_⟩
      · rw [grantTo_lift, faulted_lift]
        dsimp only
        rw [queue, waits, List.erase_cons_head]
      · rw [grantTo_get_same, faulted_get_other _ _ other, ← openedAt_read s r b]
        rfl
      · rw [grantTo_get_other _ off_b, faulted_get_other _ _ off_a]
    · obtain ⟨i, x, here, is⟩ : LatchedAt .armStuck (armNumber a) 2 (motionExpired a (s.openedAt r)).faults := by
        refine motionExpired_latched ?_ ?_ ?_
        · unfold Faults.find; rw [openedAt_places]; exact absent
        · unfold Faults.mergedHas; rw [openedAt_aggregate]; exact apart
        · rw [openedAt_places]; exact free
      exact ⟨x, mem_records.2 (.inl ⟨i, here⟩), is⟩
  · intro s r a run
    cases a <;> exact ⟨fun timer => .of (expires_of run timer) ⟨rfl, reportBegun_holds ..⟩,
      fun timer => .of (expires_of run timer) ⟨rfl, reportBegun_holds ..⟩⟩

end Sys2Proof.LiftCircuit
end

section
/-! SUPPORT. The stages of an arm period as functions of an arm's record, and the commands that follow them: O37. -/

namespace Sys2Proof.LiftCircuit
open Sys2Proof Sys2Proof.Machine Sys2Proof.Signals

/-! ## Stages that visit arms -/

/-- A stage of the sequencer writes the records of the arms it visits only, and gives nobody the lift circuit. -/
structure Visits (l : List Arm) (s t : State) : Prop where
  sequences : Sequences s t
  others : ∀ b, b ∉ l → t.arms.get b = s.arms.get b
  holder : t.lift.holder = s.lift.holder ∨ t.lift.holder = none

namespace Visits

theorem refl (l) (s : State) : Visits l s s := ⟨.refl s, fun _ _ => rfl, .inl rfl⟩
theorem append {l l' : List Arm} {s t u : State} (h : Visits l s t) (k : Visits l' t u) : Visits (l ++ l') s u := by
  refine ⟨h.sequences.trans k.sequences, fun b out => ?_, ?_⟩
  · obtain ⟨first, second⟩ := not_or.1 (mt List.mem_append.2 out)
    exact (k.others b second).trans (h.others b first)
  · rcases k.holder with same | gone
    · rw [same]; exact h.holder
    · exact .inr gone
theorem trans {a : Arm} {s t u : State} (h : Visits [a] s t) (k : Visits [a] t u) : Visits [a] s u := by
  have both := h.append k
  exact ⟨both.sequences, fun b out => both.others b (by simpa using out), both.holder⟩
theorem foldl {f : State → Arm → State} (visits : ∀ s a, Visits [a] s (f s a)) (l : List Arm) :
    ∀ s : State, Visits l s (l.foldl f s) := by
  induction l with
  | nil => exact refl []
  | cons a l ih => exact fun s => (visits s a).append (ih (f s a))
theorem ite {l : List Arm} {s t u : State} {c : Prop} [Decidable c] (h : Visits l s t) (k : Visits l s u) :
    Visits l s (if c then t else u) := by
  split
  · exact h
  · exact k

/-- An arm's record may be written, with marks and what of the lift circuit is neither holder nor timer. -/
theorem of_set {a : Arm} {r : ArmRec} {s t : State}
    (frame : t = { s with arms := t.arms, lift := t.lift, ev := t.ev }) (arms : t.arms = s.arms.set a r)
    (timer : t.lift.timer = s.lift.timer) (holder : t.lift.holder = s.lift.holder ∨ t.lift.holder = none) :
    Visits [a] s t :=
  ⟨.of_write frame timer, fun b out => by rw [arms, PerArm.get_set_other _ _ (by simpa using out)], holder⟩
theorem of_ended (a : Arm) (k n) (s : State) : Visits [a] s (reportEnded k n s) := by
  have reports := reportEnded_reports k n s
  exact ⟨.of_ended k n s, fun b _ => by rw [reports.arms], .inl (by rw [reports.lift])⟩

end Visits

/-- The arms whose stage comes before that of an arm, and those whose stage comes after it. -/
def earlier : Arm → List Arm
  | .sl => []
  | .sr => [.sl]
  | .mb => [.sl, .sr]
@[inherit_doc earlier] def later : Arm → List Arm
  | .sl => [.sr, .mb]
  | .sr => [.mb]
  | .mb => []

theorem not_mem_earlier (a : Arm) : a ∉ earlier a := by cases a <;> decide
theorem not_mem_later (a : Arm) : a ∉ later a := by cases a <;> decide
theorem foldl_allArms (f : State → Arm → State) (s : State) (a : Arm) :
    allArms.foldl f s = (later a).foldl f (f ((earlier a).foldl f s) a) := by cases a <;> rfl

/-- Over all arms, an arm's record is written by its own stage, which finds it as it was. -/
theorem foldl_allArms_get {f : State → Arm → State} (visits : ∀ s a, Visits [a] s (f s a)) (s : State) (a : Arm) :
    (allArms.foldl f s).arms.get a = (f ((earlier a).foldl f s) a).arms.get a
    ∧ ((earlier a).foldl f s).arms.get a = s.arms.get a := by
  rw [foldl_allArms f s a]
  exact ⟨(Visits.foldl visits _ _).others a (not_mem_later a), (Visits.foldl visits _ _).others a (not_mem_earlier a)⟩

/-! ## An arm made ready: configuration read, desired position derived (06 R88, R91) -/

/-- An arm's record with its configuration read and its desired position derived. -/
def readied (s : State) (a : Arm) (r : ArmRec) : ArmRec :=
  { r with
    read := s.armCfg a
    obstructed := r.obstructed && requested s a
    desiredDown := requested s a && s.profile.kind == .work && !s.service.session && decide (s.faults.level < 2)
      && !reverseLift s a && !r.obstructed }

/-- The state in which an arm's transition is weighed. -/
def ready (a : Arm) (s : State) : State := deriveDesired a (readCfg a s)

section
variable (a : Arm) (s : State)

theorem readCfg_visits : Visits [a] s (readCfg a s) := .of_set rfl rfl rfl (.inl rfl)
theorem clearObstruction_visits : Visits [a] s (clearObstruction a s) := by
  unfold clearObstruction
  dsimp only
  refine .ite (.trans (t := { s with arms := s.arms.set a { s.arms.get a with obstructed := false } })
    (.of_set rfl rfl rfl (.inl rfl)) (.of_ended a _ _ _)) (.refl _ s)
theorem deriveDesired_visits : Visits [a] s (deriveDesired a s) :=
  (clearObstruction_visits a s).trans (.of_set rfl rfl rfl (.inl rfl))
theorem ready_visits : Visits [a] s (ready a s) := (readCfg_visits a s).trans (deriveDesired_visits a _)

theorem clearObstruction_get : (clearObstruction a s).arms.get a =
    { s.arms.get a with obstructed := (s.arms.get a).obstructed && requested s a } := by
  unfold clearObstruction
  dsimp only
  cases asked : requested s a with
  | true => simp
  | false => simp [(reportEnded_reports ..).arms]

theorem requested_of_sequences {t : State} (h : Sequences s t) : requested t a = requested s a := by
  unfold requested; rw [h.role]
theorem reverseLift_of_sequences {t : State} (h : Sequences s t) : reverseLift t a = reverseLift s a := by
  unfold reverseLift; rw [h.gov, h.profile]

theorem ready_get : (ready a s).arms.get a = readied s a (s.arms.get a) := by
  have read := (readCfg_visits a s).sequences
  have cleared := read.trans (clearObstruction_visits a (readCfg a s)).sequences
  show (((clearObstruction a (readCfg a s)).arms.set a _).get a) = _
  rw [PerArm.get_set_same, clearObstruction_get, desiresDown, clearObstruction_get, requested_of_sequences a s cleared,
    requested_of_sequences a s read, reverseLift_of_sequences a s cleared, cleared.profile, cleared.service,
    cleared.level]
  show ({ ((s.arms.set a { s.arms.get a with read := s.armCfg a }).get a) with
    obstructed := _, desiredDown := _ } : ArmRec) = _
  simp only [readCfg, PerArm.get_set_same, readied]
  cases requested s a <;> simp

/-- Without a request ARM_OBSTRUCTED ends. -/
theorem ready_unobstructed (asked : requested s a = false) (ok : FaultList.ListOk s.faults) :
    Gone (ready a s).faults .armObstructed (armNumber a) := by
  have unasked : requested (readCfg a s) a = false :=
    (requested_of_sequences a s (readCfg_visits a s).sequences).trans asked
  have cleared : (clearObstruction a (readCfg a s)) = reportEnded .armObstructed (armNumber a) { readCfg a s with
      arms := (readCfg a s).arms.set a { (readCfg a s).arms.get a with obstructed := false } } := by
    unfold clearObstruction
    dsimp only
    rw [unasked]
    rfl
  show Gone (clearObstruction a (readCfg a s)).faults _ _
  rw [cleared]
  exact reportEnded_ends _ (FaultList.faultListOk_iff.2 ok) (by decide)

end

/-! ## Transitions (06 R92 to R101) -/

section
variable (a : Arm) (s : State)

theorem enterState_visits (st) : Visits [a] s (enterState a st s) := .of_set rfl rfl rfl (.inl rfl)
theorem join_visits (up o) : Visits [a] s (join a up o s) := .of_set rfl rfl rfl (.inl rfl)
theorem tryJoin_visits (up o) : Visits [a] s (tryJoin a up o s) := .ite (join_visits a s up o) (.refl _ s)
theorem leaveQueue_visits : Visits [a] s (leaveQueue a s) :=
  ⟨leaveQueue_sequences a s, fun b out => by rw [leaveQueue_arms, PerArm.get_set_other _ _ (by simpa using out)],
    .inl (by rw [leaveQueue_lift])⟩
theorem turnBack_visits (st) : Visits [a] s (turnBack a st s) :=
  (leaveQueue_visits a s).trans (enterState_visits a _ st)
theorem changeWait_visits (up) : Visits [a] s (changeWait a up s) := .of_set rfl rfl rfl (.inl rfl)
theorem endMotion_visits (st) : Visits [a] s (endMotion a st s) := .of_set rfl rfl rfl (.inr rfl)
theorem enterFloat_visits : Visits [a] s (enterFloat a s) := .ite (.of_set rfl rfl rfl (.inl rfl)) (.refl _ s)
theorem leaveFloat_visits : Visits [a] s (leaveFloat a s) := .ite (.of_set rfl rfl rfl (.inl rfl)) (.refl _ s)
theorem turnUp_visits : Visits [a] s (turnUp a s) := by
  unfold turnUp
  split
  · exact turnBack_visits a s _
  all_goals exact .ite (turnBack_visits a s _) (changeWait_visits a s _)
theorem turnDown_visits : Visits [a] s (turnDown a s) := by
  unfold turnDown
  split
  · exact turnBack_visits a s _
  all_goals exact .ite (turnBack_visits a s _) (changeWait_visits a s _)
theorem rejoinArm_visits : Visits [a] s (rejoinArm s a) := by
  refine .ite ?_ (.refl _ s)
  split
  · exact join_visits a s _ _
  · exact join_visits a s _ _
  · exact .refl _ s

theorem transition_visits : Visits [a] s (transition a s) := by
  unfold transition
  dsimp only
  cases (s.arms.get a).state
  case init => exact .ite (.ite (enterState_visits a s _) (tryJoin_visits a s _ _)) (.refl _ s)
  case stowed => exact .ite (tryJoin_visits a s _ _) (.refl _ s)
  case waitDown => exact .ite (.refl _ s) (turnUp_visits a s)
  case waitUp => exact .ite (turnDown_visits a s) (.refl _ s)
  case lowering => exact .ite (endMotion_visits a s _) (.refl _ s)
  case lifting => exact .ite (endMotion_visits a s _) (.refl _ s)
  case working => exact .ite (join_visits a s _ _) (enterFloat_visits a s)
  case float => exact .ite (join_visits a s _ _) (leaveFloat_visits a s)
  case frozen => exact rejoinArm_visits a s
  case faulted => exact .refl _ s

/-! ### The record a transition leaves -/

/-- The record of an arm that joins the queue (06 R96). -/
def joinedRec (up : Bool) (origin : WaitOrigin) (r : ArmRec) : ArmRec :=
  { r with state := if up then .waitUp else .waitDown, origin := origin, floatT := none, waitT := some 20000000 }

/-- The record of an arm that leaves the queue (06 R94). -/
def leftRec (st : ArmState) (r : ArmRec) : ArmRec := { r with waitT := none, starved := false, state := st }

/-- The record of an arm that waits the other way (06 R94). -/
def turnedRec (up : Bool) (r : ArmRec) : ArmRec :=
  { r with state := if up then .waitUp else .waitDown, origin := .midway }

/-- The record of an arm whose motion has ended (06 R98). -/
def endedRec (st : ArmState) (r : ArmRec) : ArmRec := { r with state := st, valve := 0, motionT := none }

/-- Whether an arm's deflection is above its on threshold, or below its off threshold (06 R101). -/
def bentOn (s : State) (a : Arm) : Bool :=
  (s.role (.armDeflection a)).fresh && decide (((s.armCfg a).deflOn : Int) < (s.role (.armDeflection a)).value)
@[inherit_doc bentOn] def bentOff (s : State) (a : Arm) : Bool :=
  (s.role (.armDeflection a)).fresh && decide ((s.role (.armDeflection a)).value < ((s.armCfg a).deflOff : Int))

/-- An arm's record after its transition, `may` telling whether the joining rule lets it in. -/
def moved (s : State) (a : Arm) (may : Bool) (r : ArmRec) : ArmRec :=
  match r.state with
  | .init =>
    if !(s.role (.armPosition a)).fresh then r
    else if atStow s a then { r with state := .stowed }
    else if may then joinedRec true .midway r else r
  | .stowed => if r.desiredDown && may then joinedRec false .stowed r else r
  | .waitDown =>
    if r.desiredDown then r
    else if r.origin == .stowed || atStow s a then leftRec .stowed r else turnedRec true r
  | .waitUp =>
    if !r.desiredDown then r
    else if r.origin == .working || atWork s a then leftRec .working r else turnedRec false r
  | .lowering => if atWork s a then endedRec .working r else r
  | .lifting => if atStow s a then endedRec .stowed r else r
  | .working =>
    if !r.desiredDown && may then joinedRec true .working r
    else if bentOn s a then { r with state := .float, floatT := some (1000 * (s.armCfg a).floatLimit) } else r
  | .float =>
    if !r.desiredDown && may then joinedRec true .working r
    else if bentOff s a then { r with state := .working, floatT := none } else r
  | .frozen =>
    match r.frozenMotion with
    | .up => if may then joinedRec true r.origin r else r
    | .down => if may then joinedRec false r.origin r else r
    | .none => r
  | .faulted => r

theorem join_get (up o) : (join a up o s).arms.get a = joinedRec up o (s.arms.get a) := PerArm.get_set_same ..
theorem tryJoin_get (up o) : (tryJoin a up o s).arms.get a =
    if mayJoin s s.faults.level then joinedRec up o (s.arms.get a) else s.arms.get a := by
  unfold tryJoin
  split
  · exact join_get a s up o
  · rfl
theorem turnBack_get (st) : (turnBack a st s).arms.get a = leftRec st (s.arms.get a) := by
  rw [turnBack_arms, PerArm.get_set_same]; rfl
theorem changeWait_get (up) : (changeWait a up s).arms.get a = turnedRec up (s.arms.get a) := PerArm.get_set_same ..
theorem endMotion_get (st) : (endMotion a st s).arms.get a = endedRec st (s.arms.get a) := PerArm.get_set_same ..

theorem get_ite {c : Prop} [Decidable c] {t u : State} :
    (if c then t else u).arms.get a = if c then t.arms.get a else u.arms.get a := by split <;> rfl

theorem enterFloat_get : (enterFloat a s).arms.get a =
    if bentOn s a then { s.arms.get a with state := .float, floatT := some (1000 * (s.armCfg a).floatLimit) }
    else s.arms.get a := by
  unfold enterFloat bentOn
  simp only [get_ite, Bool.and_eq_true, decide_eq_true_eq]
  split
  · exact PerArm.get_set_same ..
  · rfl
theorem leaveFloat_get : (leaveFloat a s).arms.get a =
    if bentOff s a then { s.arms.get a with state := .working, floatT := none } else s.arms.get a := by
  unfold leaveFloat bentOff
  simp only [get_ite, Bool.and_eq_true, decide_eq_true_eq]
  split
  · exact PerArm.get_set_same ..
  · rfl
theorem onRoad_get (weigh : Arm → State → State) : (onRoad a weigh s).arms.get a =
    if !(s.arms.get a).desiredDown && mayJoin s s.faults.level then joinedRec true .working (s.arms.get a)
    else (weigh a s).arms.get a := by
  unfold onRoad
  rw [get_ite, join_get]
theorem turnUp_get : (turnUp a s).arms.get a =
    if (s.arms.get a).origin == .stowed || atStow s a then leftRec .stowed (s.arms.get a)
    else turnedRec true (s.arms.get a) := by
  unfold turnUp
  cases (s.arms.get a).origin <;> simp [get_ite, turnBack_get, changeWait_get]
theorem turnDown_get : (turnDown a s).arms.get a =
    if (s.arms.get a).origin == .working || atWork s a then leftRec .working (s.arms.get a)
    else turnedRec false (s.arms.get a) := by
  unfold turnDown
  cases (s.arms.get a).origin <;> simp [get_ite, turnBack_get, changeWait_get]
theorem leaveInit_get : (leaveInit a s).arms.get a =
    if !(s.role (.armPosition a)).fresh then s.arms.get a
    else if atStow s a then { s.arms.get a with state := .stowed }
    else if mayJoin s s.faults.level then joinedRec true .midway (s.arms.get a) else s.arms.get a := by
  have stowed : (enterState a .stowed s).arms.get a = { s.arms.get a with state := .stowed } := PerArm.get_set_same ..
  unfold leaveInit
  rw [get_ite, get_ite, stowed, tryJoin_get]
  cases (s.role (.armPosition a)).fresh <;> rfl
theorem rejoinArm_get (frozen : (s.arms.get a).state = .frozen) : (rejoinArm s a).arms.get a =
    match (s.arms.get a).frozenMotion with
    | .up => if mayJoin s s.faults.level then joinedRec true (s.arms.get a).origin (s.arms.get a) else s.arms.get a
    | .down => if mayJoin s s.faults.level then joinedRec false (s.arms.get a).origin (s.arms.get a) else s.arms.get a
    | .none => s.arms.get a := by
  unfold rejoinArm
  dsimp only
  rw [frozen]
  cases mayJoin s s.faults.level <;> cases (s.arms.get a).frozenMotion <;> simp [join_get]

/-- A transition depends on the arm's record, its inputs and the joining rule. -/
theorem transition_get : (transition a s).arms.get a = moved s a (mayJoin s s.faults.level) (s.arms.get a) := by
  unfold transition moved
  dsimp only
  cases state : (s.arms.get a).state
  case init => exact leaveInit_get a s
  case stowed =>
    dsimp only
    rw [get_ite, tryJoin_get]
    cases (s.arms.get a).desiredDown <;> simp
  case waitDown => dsimp only; rw [get_ite, turnUp_get]
  case waitUp =>
    dsimp only
    rw [get_ite, turnDown_get]
    cases (s.arms.get a).desiredDown <;> simp
  case lowering => dsimp only; rw [get_ite, endMotion_get]
  case lifting => dsimp only; rw [get_ite, endMotion_get]
  case working => dsimp only; rw [onRoad_get, enterFloat_get]
  case float => dsimp only; rw [onRoad_get, leaveFloat_get]
  case frozen => exact (rejoinArm_get a s state).trans rfl
  case faulted => rfl

/-- The stages before an arm's own leave the inputs of its transition. -/
theorem moved_of_sequences {t : State} (h : Sequences s t) (may r) : moved t a may r = moved s a may r := by
  unfold moved atStow atWork bentOn bentOff
  rw [h.role, h.role, h.armCfg]
theorem readied_of_sequences {t : State} (h : Sequences s t) (r) : readied t a r = readied s a r := by
  unfold readied
  rw [requested_of_sequences a s h, reverseLift_of_sequences a s h, h.profile, h.service, h.level, h.armCfg]

/-- No transition touches the fields an arm is made ready with, or its scaled speed. -/
theorem moved_steady (may) (r : ArmRec) :
    (moved s a may r).read = r.read ∧ (moved s a may r).obstructed = r.obstructed
    ∧ (moved s a may r).desiredDown = r.desiredDown ∧ (moved s a may r).scaled = r.scaled := by
  unfold moved
  cases r.state <;> dsimp only
  case frozen =>
    cases r.frozenMotion <;> dsimp only
    case none => exact ⟨rfl, rfl, rfl, rfl⟩
    all_goals split <;> exact ⟨rfl, rfl, rfl, rfl⟩
  case faulted => exact ⟨rfl, rfl, rfl, rfl⟩
  all_goals split_ifs <;> exact ⟨rfl, rfl, rfl, rfl⟩

/-! ## The first stage -/

theorem armStage_of_fitted (fit : (s.armCfg a).fitted = true) : armStage s a = transition a (ready a s) := by
  unfold armStage
  exact if_pos fit
theorem armStage_of_unfitted (unfit : ¬(s.armCfg a).fitted = true) : armStage s a = readCfg a s := by
  unfold armStage
  exact if_neg unfit
theorem armStage_visits : Visits [a] s (armStage s a) := by
  by_cases fit : (s.armCfg a).fitted = true
  · rw [armStage_of_fitted a s fit]
    exact (ready_visits a s).trans (transition_visits a _)
  · rw [armStage_of_unfitted a s fit]
    exact readCfg_visits a s

/-- Whether the queue takes an arm at its own transition. -/
def entersAt (s : State) (a : Arm) : Bool := mayJoin (ready a s) (ready a s).faults.level

theorem armStage_get (fit : (s.armCfg a).fitted = true) : (armStage s a).arms.get a =
    moved s a (entersAt s a) (readied s a (s.arms.get a)) := by
  rw [armStage_of_fitted a s fit, transition_get, ready_get, moved_of_sequences a s (ready_visits a s).sequences]
  rfl

theorem readCfg_get : (readCfg a s).arms.get a = { s.arms.get a with read := s.armCfg a } := PerArm.get_set_same ..
theorem armStage_scaled : ((armStage s a).arms.get a).scaled = (s.arms.get a).scaled := by
  by_cases fit : (s.armCfg a).fitted = true
  · rw [armStage_get a s fit]
    obtain ⟨-, -, -, scaled⟩ := moved_steady a s (entersAt s a) (readied s a (s.arms.get a))
    exact scaled
  · rw [armStage_of_unfitted a s fit]
    rw [readCfg_get]

end

/-! ## The period as a whole -/

/-- The state of an arm period when the arms have taken their transitions and the grant is weighed. -/
def staged (s : State) : State := allArms.foldl armStage { s with lift.timer := some 20000 }

/-- The state in which an arm takes its stage of the period. -/
def entry (s : State) (a : Arm) : State := (earlier a).foldl armStage { s with lift.timer := some 20000 }

section
variable (a : Arm) (s : State)

theorem timerSet_armsOnly : ArmsOnly s { s with lift.timer := some 20000 } := rfl
theorem entry_visits : Visits (earlier a) { s with lift.timer := some 20000 } (entry s a) :=
  .foldl (fun s a => armStage_visits a s) _ _
theorem entry_get : (entry s a).arms.get a = s.arms.get a := (entry_visits a s).others a (not_mem_earlier a)
theorem staged_visits : Visits allArms { s with lift.timer := some 20000 } (staged s) :=
  .foldl (fun s a => armStage_visits a s) _ _

theorem staged_eq : staged s = (later a).foldl armStage (armStage (entry s a) a) := foldl_allArms ..
theorem staged_rest : Visits (later a) (armStage (entry s a) a) (staged s) := by
  rw [staged_eq a s]
  exact .foldl (fun s a => armStage_visits a s) _ _
theorem staged_get_own : (staged s).arms.get a = (armStage (entry s a) a).arms.get a :=
  (staged_rest a s).others a (not_mem_later a)

/-- The record with which a fitted arm meets the grant. -/
theorem staged_get (fit : (s.armCfg a).fitted = true) : (staged s).arms.get a =
    moved s a (entersAt (entry s a) a) (readied s a (s.arms.get a)) := by
  have before := (entry_visits a s).sequences
  rw [staged_get_own, armStage_get _ _ ((before.armCfg a).symm ▸ fit), moved_of_sequences a _ before,
    readied_of_sequences a _ before, entry_get]
  rfl

theorem staged_scaled : ((staged s).arms.get a).scaled = (s.arms.get a).scaled := by
  rw [staged_get_own, armStage_scaled, entry_get]

/-- The record of an arm with the commands of its state (06 R103). -/
def commandedRec (s : State) (a : Arm) (r : ArmRec) : ArmRec :=
  let rpm := if r.state.turning then s.tables.curves[(s.armParams a).curve].eval s.absSpeed else 0
  { r with valve := valveOf (s.armCfg a) r.state, pressure := if r.state = .working then (s.armParams a).pressure else 0
           rpm := rpm, scaled := min r.scaled rpm }

theorem commandStage_visits : Visits [a] s (commandStage s a) := .of_set rfl rfl rfl (.inl rfl)
theorem commandStage_get : (commandStage s a).arms.get a = commandedRec s a (s.arms.get a) := PerArm.get_set_same ..
theorem commandStage_lift : (commandStage s a).lift = s.lift := rfl
theorem commandStage_faults : (commandStage s a).faults = s.faults := rfl
theorem commandedRec_of_sequences {t : State} (h : Sequences s t) (r) : commandedRec t a r = commandedRec s a r := by
  rw [h.frame]
  rfl

/-- The arms of an arm period with their commands, before the banks follow. -/
def commanded (s : State) : State := allArms.foldl commandStage (weighGrant (staged s))

theorem commanded_sequences : Sequences { s with lift.timer := some 20000 } (commanded s) :=
  (staged_visits s).sequences.trans <| (weighGrant_sequences _).trans <|
    (Visits.foldl (fun s a => commandStage_visits a s) allArms _).sequences
theorem commanded_lift : (commanded s).lift = (weighGrant (staged s)).lift :=
  foldl_field State.lift _ (fun s a => commandStage_lift a s) _ _
theorem commanded_faults : (commanded s).faults = (weighGrant (staged s)).faults :=
  foldl_field State.faults _ (fun s a => commandStage_faults a s) _ _
theorem commanded_get : (commanded s).arms.get a = commandedRec s a ((weighGrant (staged s)).arms.get a) := by
  obtain ⟨own, found⟩ := foldl_allArms_get (fun s a => commandStage_visits a s) (weighGrant (staged s)) a
  have before := (staged_visits s).sequences.trans <| (weighGrant_sequences _).trans
    (Visits.foldl (fun s a => commandStage_visits a s) (earlier a) _).sequences
  unfold commanded
  rw [own, commandStage_get, found, commandedRec_of_sequences a _ before]
  rfl

theorem armPeriodBody_eq :
    armPeriodBody s = { banksFollowArms (commanded s) with ev.period := some .armPeriod } := rfl
theorem armPeriodBody_armsOnly : ArmsOnly s (armPeriodBody s) := by
  have only := ArmsOnly.trans (timerSet_armsOnly s) (commanded_sequences s).only
  rw [armPeriodBody_eq]
  unfold banksFollowArms
  rw [closeBanks_frame]
  exact only.trans rfl
theorem armPeriodBody_get : (armPeriodBody s).arms.get a = commandedRec s a ((weighGrant (staged s)).arms.get a) := by
  rw [armPeriodBody_eq, ← commanded_get]
  exact congrArg (PerArm.get · a) (closeBanks_arms ..)
theorem armPeriodBody_lift : (armPeriodBody s).lift = (weighGrant (staged s)).lift := by
  rw [armPeriodBody_eq, ← commanded_lift]
  exact closeBanks_lift ..
theorem armPeriodBody_faults : (armPeriodBody s).faults = (weighGrant (staged s)).faults := by
  rw [armPeriodBody_eq, ← commanded_faults]
  unfold banksFollowArms
  rw [closeBanks_frame]
theorem armPeriodBody_volume : (armPeriodBody s).spray.volume = s.spray.volume := by
  rw [armPeriodBody_eq]
  exact (closeBanks_volume ..).trans (congrArg Spray.volume (commanded_sequences s).spray)
theorem armPeriodBody_isOpen : ((armPeriodBody s).spray.banks.get a).isOpen =
    ((s.spray.banks.get a).isOpen && ((armPeriodBody s).arms.get a).state.turning) := by
  have arms : (armPeriodBody s).arms = (commanded s).arms := by
    rw [armPeriodBody_eq]
    exact closeBanks_arms ..
  have spray : (commanded s).spray = s.spray := (commanded_sequences s).spray
  rw [arms, ← spray, armPeriodBody_eq]
  refine (closeBanks_isOpen _ _ a).trans ?_
  rw [PerArm.get_map, Bool.not_not]

/-- The grant leaves what an arm was made ready with, and its scaled speed. -/
theorem weighGrant_steady :
    ((weighGrant s).arms.get a).obstructed = (s.arms.get a).obstructed
    ∧ ((weighGrant s).arms.get a).desiredDown = (s.arms.get a).desiredDown
    ∧ ((weighGrant s).arms.get a).scaled = (s.arms.get a).scaled := by
  rcases weighGrant_cases s with ⟨same, -⟩ | ⟨b, rest, -, -, granted⟩
  · rw [same]; exact ⟨rfl, rfl, rfl⟩
  · rw [granted]
    by_cases e : a = b
    · subst e; rw [grantTo_get_same]; exact ⟨rfl, rfl, rfl⟩
    · rw [grantTo_get_other s e]; exact ⟨rfl, rfl, rfl⟩

/-- A fitted arm ends the period as it was made ready. -/
theorem armPeriodBody_readied (fit : (s.armCfg a).fitted = true) :
    ((armPeriodBody s).arms.get a).obstructed = (readied s a (s.arms.get a)).obstructed
    ∧ ((armPeriodBody s).arms.get a).desiredDown = (readied s a (s.arms.get a)).desiredDown := by
  obtain ⟨obstructed, desired, -⟩ := weighGrant_steady a (staged s)
  obtain ⟨-, obstructed', desired', -⟩ := moved_steady a s (entersAt (entry s a) a) (readied s a (s.arms.get a))
  rw [staged_get a s fit] at obstructed desired
  rw [armPeriodBody_get]
  exact ⟨obstructed.trans obstructed', desired.trans desired'⟩

theorem armPeriodBody_timer : (armPeriodBody s).lift.timer = some 20000 := by
  rw [armPeriodBody_lift, ← commanded_lift]
  exact (commanded_sequences s).timer

/-- A condition that is gone after an arm's stage is gone at the end of the period. -/
theorem armPeriodBody_gone {k n} (gone : Gone (armStage (entry s a) a).faults k n) :
    Gone (armPeriodBody s).faults k n := by
  rw [armPeriodBody_faults]
  exact (weighGrant_sequences _).gone ((staged_rest a s).sequences.gone gone)

/-- The commands of an arm follow the state in which it ends the period. -/
theorem armPeriodBody_commands :
    ((armPeriodBody s).arms.get a).valve = valveOf (s.armCfg a) ((armPeriodBody s).arms.get a).state
    ∧ ((armPeriodBody s).arms.get a).pressure =
      (if ((armPeriodBody s).arms.get a).state = .working then (s.armParams a).pressure else 0)
    ∧ ((armPeriodBody s).arms.get a).rpm = (if ((armPeriodBody s).arms.get a).state.turning then
        s.tables.curves[(s.armParams a).curve].eval s.absSpeed else 0)
    ∧ ((armPeriodBody s).arms.get a).scaled = min (s.arms.get a).scaled ((armPeriodBody s).arms.get a).rpm := by
  obtain ⟨-, -, scaled⟩ := weighGrant_steady a (staged s)
  rw [staged_scaled] at scaled
  rw [armPeriodBody_get]
  refine ⟨rfl, rfl, rfl, ?_⟩
  rw [← scaled]
  rfl

/-- Without a request a fitted arm has no obstruction left after the period. -/
theorem armPeriodBody_unobstructed (fit : (s.armCfg a).fitted = true) (asked : requested s a = false)
    (ok : FaultList.ListOk s.faults) : Gone (armPeriodBody s).faults .armObstructed (armNumber a) := by
  refine armPeriodBody_gone a s ?_
  have before := (entry_visits a s).sequences
  rw [armStage_of_fitted a _ ((before.armCfg a).symm ▸ fit)]
  refine (transition_visits a _).sequences.gone (ready_unobstructed a _ ?_ (before.listOk ok))
  exact (requested_of_sequences a _ before).trans asked

end

/-! ## O37 -/

section
variable (s : State) (r : Nat) (a : Arm)

theorem openedAt_armRec : (s.openedAt r).arms.get a = { s.arms.get a with
    motionT := ((s.openedAt r).arms.get a).motionT, floatT := ((s.openedAt r).arms.get a).floatT
    waitT := ((s.openedAt r).arms.get a).waitT } := advance_arm r s a
theorem openedAt_armCfg : (s.openedAt r).armCfg a = s.armCfg a := by unfold State.armCfg; rw [openedAt_tables]
theorem openedAt_requested : requested (s.openedAt r) a = requested s a := by unfold requested; rw [openedAt_role]
theorem openedAt_spray : (s.openedAt r).spray.banks = s.spray.banks := by cases r <;> rfl
/-- Time leaves what an arm's desired position is derived from. -/
theorem openedAt_readied : (readied (s.openedAt r) a ((s.openedAt r).arms.get a)).obstructed =
      ((s.arms.get a).obstructed && requested s a)
    ∧ (readied (s.openedAt r) a ((s.openedAt r).arms.get a)).desiredDown = (requested s a && s.profile.kind == .work
      && !s.service.session && decide (s.faults.level < 2) && !reverseLift s a && !(s.arms.get a).obstructed) := by
  have obstructed : ((s.openedAt r).arms.get a).obstructed = (s.arms.get a).obstructed := by rw [openedAt_armRec]
  have lifted : reverseLift (s.openedAt r) a = reverseLift s a := by
    unfold reverseLift
    rw [openedAt_profile, show (s.openedAt r).gov.state = s.gov.state from advance_gov_state r s]
  have session : (s.openedAt r).service.session = s.service.session := advance_service_session r s
  unfold readied
  dsimp only
  rw [openedAt_requested, openedAt_profile, Profiles.openedAt_level, obstructed, lifted, session]
  exact ⟨rfl, rfl⟩
theorem openedAt_commands : (s.openedAt r).armParams a = s.armParams a := by
  unfold State.armParams; rw [openedAt_profile]

end

theorem reverseLift_iff {s : State} {a : Arm} :
    reverseLift s a = true ↔ a ≠ .mb ∧ s.gov.state = .reverse ∧ s.profile.liftReverse = true := by
  simp [reverseLift, and_assoc]
theorem valveOf_eq (c : ArmCfg) (st : ArmState) :
    valveOf c st = if st = .lowering then c.lower else if st = .lifting then c.lift else 0 := by cases st <;> rfl
theorem turning_eq (st : ArmState) : st.turning = (st == .working || st == .float) := by cases st <;> rfl

/-- Settles O37: the commands are those of the record with which the grant leaves an arm, the desired position and the
obstruction hold those with which it was made ready. -/
theorem armCommandsFollowStates : Obligations.ArmCommandsFollowStates := by
  unfold Obligations.ArmCommandsFollowStates
  intro s r run timer
  refine .of (expires_of run timer) ⟨fun a => ?_, armPeriodBody_timer _, ?_, armPeriodBody_armsOnly _⟩
  · obtain ⟨valve, pressure, rpm, scaled⟩ := armPeriodBody_commands a (s.openedAt r)
    obtain ⟨held, wanted⟩ := openedAt_readied s r a
    have bank := armPeriodBody_isOpen a (s.openedAt r)
    rw [openedAt_armCfg, valveOf_eq] at valve
    simp only [openedAt_commands] at pressure rpm
    rw [turning_eq] at rpm bank
    dsimp only
    refine ⟨valve, pressure, ?_, ?_, fun fit asked ok => ?_, fun fit => ?_, ?_⟩
    · refine rpm.trans ?_
      rw [openedAt_tables, openedAt_absSpeed]
      rfl
    · refine scaled.trans ?_
      rw [openedAt_armRec]
    · refine (armPeriodBody_unobstructed a (s.openedAt r) ((openedAt_armCfg s r a).symm ▸ fit) ?_
        (FaultList.faultListOk_iff.1 (openedAt_faultListOk ok r))).holds
      exact (openedAt_requested s r a).trans asked
    · obtain ⟨kept, derived⟩ := armPeriodBody_readied a (s.openedAt r) ((openedAt_armCfg s r a).symm ▸ fit)
      refine ⟨kept.trans held, ?_⟩
      rw [derived, wanted, ← reverseLift_iff]
      change _ ↔ requested s a = true ∧ _
      simp [and_assoc]
    · rw [bank, openedAt_spray, Bool.and_eq_true]
  · exact (armPeriodBody_volume _).trans (advance_spray_volume r s)

end Sys2Proof.LiftCircuit
end

section
/-! SUPPORT. What an arm's transition finds in the queue, and what the grant makes of its record: the
transitions of O38. -/

namespace Sys2Proof.LiftCircuit
open Sys2Proof Sys2Proof.Machine Sys2Proof.Signals

/-! ## The queue over the transitions of a period -/

/-- The states from which an arm may join the queue (06 R92, R93, R106). -/
def joinable (st : ArmState) : Bool := [ArmState.init, .stowed, .working, .float, .frozen].contains st

/-- An arm's wait is of the other kind than its desired position asks for (06 R94). -/
def Disagrees (r : ArmRec) : Prop :=
  r.state = .waitDown ∧ r.desiredDown = false ∨ r.state = .waitUp ∧ r.desiredDown = true

theorem queueInsert_length (arms : PerArm ArmRec) (up : Bool) (a : Arm) (q : List Arm) :
    (queueInsert arms up a q).length = q.length + 1 := by
  obtain ⟨l₁, l₂, split, placed, -⟩ := queueInsert_split arms up a q
  rw [placed, split]
  simp only [List.length_append, List.length_cons]
  omega

section
variable (a : Arm) (s : State)

/-- What an arm's transition makes of the queue: nothing, one place more for an arm the joining rule lets in, or at most
the places there were for an arm that left its own. -/
def QueueTaken (s : State) (a : Arm) (t : State) : Prop :=
  t.lift.queue = s.lift.queue
  ∨ (joinable (s.arms.get a).state = true ∧ mayJoin s s.faults.level = true
    ∧ t.lift.queue.length = s.lift.queue.length + 1)
  ∨ (Disagrees (s.arms.get a) ∧ t.lift.queue.length ≤ (s.lift.queue.erase a).length + 1)

theorem QueueTaken.ite {s : State} {a : Arm} {t u : State} {c : Prop} [Decidable c] (h : c → QueueTaken s a t)
    (k : ¬c → QueueTaken s a u) : QueueTaken s a (if c then t else u) := by
  split
  · next yes => exact h yes
  · next no => exact k no
theorem QueueTaken.refl : QueueTaken s a s := .inl rfl

theorem join_queueTaken (up o) (from_rest : joinable (s.arms.get a).state = true)
    (may : mayJoin s s.faults.level = true) : QueueTaken s a (join a up o s) :=
  .inr (.inl ⟨from_rest, may, queueInsert_length s.arms up a s.lift.queue⟩)
theorem tryJoin_queueTaken (up o) (from_rest : joinable (s.arms.get a).state = true) :
    QueueTaken s a (tryJoin a up o s) := .ite (join_queueTaken a s up o from_rest) fun _ => .refl a s
theorem onRoad_queueTaken {weigh : Arm → State → State} (from_rest : joinable (s.arms.get a).state = true)
    (weighed : (weigh a s).lift = s.lift) : QueueTaken s a (onRoad a weigh s) :=
  .ite (fun may => join_queueTaken a s _ _ from_rest ((Bool.and_eq_true _ _).mp may).2) fun _ =>
    .inl (congrArg Lift.queue weighed)

theorem turnBack_queueTaken (st) (turns : Disagrees (s.arms.get a)) : QueueTaken s a (turnBack a st s) :=
  .inr (.inr ⟨turns, by rw [turnBack_lift]; exact Nat.le_succ _⟩)
theorem changeWait_queueTaken (up) (turns : Disagrees (s.arms.get a)) : QueueTaken s a (changeWait a up s) :=
  .inr (.inr ⟨turns, (queueInsert_length s.arms up a (s.lift.queue.erase a)).le⟩)
theorem turnUp_queueTaken (turns : Disagrees (s.arms.get a)) : QueueTaken s a (turnUp a s) := by
  unfold turnUp
  split
  · exact turnBack_queueTaken a s _ turns
  all_goals exact .ite (fun _ => turnBack_queueTaken a s _ turns) fun _ => changeWait_queueTaken a s _ turns
theorem turnDown_queueTaken (turns : Disagrees (s.arms.get a)) : QueueTaken s a (turnDown a s) := by
  unfold turnDown
  split
  · exact turnBack_queueTaken a s _ turns
  all_goals exact .ite (fun _ => turnBack_queueTaken a s _ turns) fun _ => changeWait_queueTaken a s _ turns
theorem rejoinArm_queueTaken (frozen : (s.arms.get a).state = .frozen) : QueueTaken s a (rejoinArm s a) := by
  have from_rest : joinable (s.arms.get a).state = true := by rw [frozen]; rfl
  refine .ite (fun both => ?_) fun _ => .refl a s
  obtain ⟨-, may⟩ := (Bool.and_eq_true _ _).mp both
  split
  · exact join_queueTaken a s _ _ from_rest may
  · exact join_queueTaken a s _ _ from_rest may
  · exact .refl a s

theorem leaveInit_queueTaken (init : (s.arms.get a).state = .init) : QueueTaken s a (leaveInit a s) :=
  .ite (fun _ => .ite (fun _ => .inl rfl) fun _ => tryJoin_queueTaken a s _ _ (by rw [init]; rfl)) fun _ => .refl a s

theorem transition_queueTaken : QueueTaken s a (transition a s) := by
  unfold transition
  dsimp only
  cases state : (s.arms.get a).state <;> dsimp only
  case init => exact leaveInit_queueTaken a s state
  case stowed => exact .ite (fun _ => tryJoin_queueTaken a s _ _ (by rw [state]; rfl)) fun _ => .refl a s
  case waitDown =>
    exact .ite (fun _ => .refl a s) fun up => turnUp_queueTaken a s (.inl ⟨state, Bool.eq_false_iff.2 up⟩)
  case waitUp => exact .ite (fun down => turnDown_queueTaken a s (.inr ⟨state, down⟩)) fun _ => .refl a s
  case lowering => exact .ite (fun _ => .inl rfl) fun _ => .refl a s
  case lifting => exact .ite (fun _ => .inl rfl) fun _ => .refl a s
  case working =>
    exact onRoad_queueTaken a s (by rw [state]; rfl) (by unfold enterFloat; dsimp only; split <;> rfl)
  case float =>
    exact onRoad_queueTaken a s (by rw [state]; rfl) (by unfold leaveFloat; dsimp only; split <;> rfl)
  case frozen => exact rejoinArm_queueTaken a s state
  case faulted => exact .refl a s

theorem ready_lift : (ready a s).lift = s.lift := by
  show (clearObstruction a (readCfg a s)).lift = s.lift
  unfold clearObstruction
  dsimp only
  split
  · exact (reportEnded_reports ..).lift
  · rfl

/-- The queue takes an arm when it has a place and neither level nor shutdown hold is against it. -/
theorem entersAt_iff : entersAt s a = true ↔
    s.lift.queue.length < 2 ∧ s.faults.level < 3 ∧ s.shutdown.hold = false := by
  have same := (ready_visits a s).sequences
  unfold entersAt
  rw [mayJoin_iff, ready_lift, same.level, same.shutdown]

/-- An arm whose stage may take one more place of the queue (06 R96). -/
def rival (s : State) (a : Arm) : Bool := (s.armCfg a).fitted && joinable (s.arms.get a).state

theorem armStage_queue_length (ok : (circuit s).Ok) :
    (armStage s a).lift.queue.length ≤ s.lift.queue.length + if rival s a then 1 else 0 := by
  by_cases fit : (s.armCfg a).fitted = true
  · rw [armStage_of_fitted a s fit]
    have taken := transition_queueTaken a (ready a s)
    unfold QueueTaken at taken
    rw [ready_lift, ready_get] at taken
    rcases taken with same | ⟨from_rest, -, more⟩ | ⟨turns, less⟩
    · rw [same]; exact Nat.le_add_right ..
    · have counts : rival s a = true := by
        unfold rival
        rw [fit]
        exact from_rest
      rw [more, if_pos counts]
    · have mem : a ∈ s.lift.queue :=
        (ok.queue a).2 (turns.imp (fun h => seat_waitDown.2 h.1) fun h => seat_waitUp.2 h.1)
      have some := List.length_pos_of_mem mem
      rw [List.length_erase_of_mem mem] at less
      omega
  · rw [armStage_of_unfitted a s fit]
    exact Nat.le_add_right ..

/-- A full queue stands at the stage of an arm that does not leave it. -/
theorem armStage_queue_full (full : s.lift.queue.length = 2) (keeps : ¬Disagrees (readied s a (s.arms.get a))) :
    (armStage s a).lift.queue = s.lift.queue := by
  by_cases fit : (s.armCfg a).fitted = true
  · rw [armStage_of_fitted a s fit]
    have taken := transition_queueTaken a (ready a s)
    unfold QueueTaken at taken
    rw [ready_lift, ready_get] at taken
    rcases taken with same | ⟨-, may, -⟩ | ⟨turns, -⟩
    · exact same
    · obtain ⟨room, -⟩ := mayJoin_iff.1 may
      rw [ready_lift] at room
      omega
    · exact absurd turns keeps
  · rw [armStage_of_unfitted a s fit]
    rfl

end

/-- A stage of another arm leaves what an arm is judged by. -/
theorem armStage_other (s : State) {a b : Arm} (other : b ≠ a) : (armStage s a).arms.get b = s.arms.get b :=
  (armStage_visits a s).others b (by simpa using other)
theorem armStage_rival (s : State) {a b : Arm} (other : b ≠ a) : rival (armStage s a) b = rival s b := by
  unfold rival
  rw [armStage_other s other, (armStage_visits a s).sequences.armCfg]

theorem foldl_queue_length (l : List Arm) : ∀ s : State, l.Nodup → (circuit s).Ok →
    (l.foldl armStage s).lift.queue.length ≤ s.lift.queue.length + l.countP (rival s) := by
  induction l with
  | nil => exact fun s _ _ => Nat.le_refl _
  | cons a l ih =>
    intro s nodup ok
    obtain ⟨new, nodup⟩ := List.nodup_cons.1 nodup
    have one := armStage_queue_length a s ok
    have rest := ih (armStage s a) nodup (armStage_keepsCircuit s a ok)
    have same : l.countP (rival (armStage s a)) = l.countP (rival s) :=
      List.countP_congr fun b mem => by
        have other : b ≠ a := fun e => new (e ▸ mem)
        rw [armStage_rival s other]
    rw [same] at rest
    rw [List.countP_cons]
    show (l.foldl armStage (armStage s a)).lift.queue.length ≤ _
    omega

theorem foldl_queue_full (l : List Arm) : ∀ s : State, l.Nodup → s.lift.queue.length = 2 →
    (∀ b ∈ l, ¬Disagrees (readied s b (s.arms.get b))) → (l.foldl armStage s).lift.queue = s.lift.queue := by
  induction l with
  | nil => exact fun _ _ _ _ => rfl
  | cons a l ih =>
    intro s nodup full keeps
    obtain ⟨new, nodup⟩ := List.nodup_cons.1 nodup
    have same := armStage_queue_full a s full (keeps a List.mem_cons_self)
    refine (ih (armStage s a) nodup (same ▸ full) fun b mem => ?_).trans same
    have other : b ≠ a := fun e => new (e ▸ mem)
    rw [armStage_other s other, readied_of_sequences b s (armStage_visits a s).sequences]
    exact keeps b (List.mem_cons_of_mem _ mem)

theorem earlier_nodup (a : Arm) : (earlier a).Nodup := by cases a <;> decide

/-- Whether the queue takes an arm at its transition in a period. -/
def entersIn (s : State) (a : Arm) : Bool := entersAt (entry s a) a

section
variable {s : State} {a : Arm}

theorem entry_level : (entry s a).faults.level = s.faults.level := (entry_visits a s).sequences.level
theorem entry_shutdown : (entry s a).shutdown = s.shutdown := (entry_visits a s).sequences.shutdown

theorem entersIn_iff : entersIn s a = true ↔
    (entry s a).lift.queue.length < 2 ∧ s.faults.level < 3 ∧ s.shutdown.hold = false := by
  unfold entersIn
  rw [entersAt_iff, entry_level, entry_shutdown]

/-- A place is left whatever the arms weighed before take. -/
theorem entersIn_of_room (ok : (circuit s).Ok) (level : s.faults.level < 3) (hold : s.shutdown.hold = false)
    (room : s.lift.queue.length + (earlier a).countP (rival s) < 2) : entersIn s a = true :=
  entersIn_iff.2 ⟨(foldl_queue_length (earlier a) { s with lift.timer := some 20000 } (earlier_nodup a)
    (KeepsCircuit.of_circuit (s := s) rfl ok)).trans_lt room, level, hold⟩

/-- A full queue of arms that keep their places shuts the others out. -/
theorem entersIn_of_full (full : s.lift.queue.length = 2) (keeps : ∀ b, ¬Disagrees (readied s b (s.arms.get b))) :
    entersIn s a = false := by
  have same : (entry s a).lift.queue = s.lift.queue :=
    foldl_queue_full (earlier a) { s with lift.timer := some 20000 } (earlier_nodup a) full fun b _ => keeps b
  refine Bool.eq_false_iff.2 fun may => ?_
  obtain ⟨room, -⟩ := entersIn_iff.1 may
  rw [same] at room
  omega

end

/-! ## What the grant makes of an arm's record -/

/-- The record with which an arm takes its transition in a period. -/
def made (s : State) (a : Arm) : ArmRec := readied s a (s.arms.get a)

/-- The record with which an arm ends a period. -/
def after (s : State) (a : Arm) : ArmRec := (armPeriodBody s).arms.get a

/-- A period ends with an arm granted the circuit, its motion limit in ms. -/
def Granted (s : State) (a : Arm) (limit : Nat) : Prop :=
  (armPeriodBody s).lift.holder = some a ∧ (after s a).motionT = some (1000 * limit)
  ∧ (after s a).waitT = none ∧ (after s a).starved = false ∧ a ∉ (armPeriodBody s).lift.queue

/-- A period ends with an arm waiting or granted the circuit. -/
def Waits (s : State) (a : Arm) (limit : Nat) (up : Bool) (o : WaitOrigin) (t : Timer) : Prop :=
  (after s a).origin = o
  ∧ (((after s a).state = (if up then .waitUp else .waitDown) ∧ (after s a).waitT = t
      ∧ a ∈ (armPeriodBody s).lift.queue)
    ∨ ((after s a).state = (if up then .lifting else .lowering) ∧ Granted s a limit))

/-- A period ends with an arm out of the queue. -/
def Leaves (s : State) (a : Arm) (st : ArmState) : Prop :=
  (after s a).state = st ∧ (after s a).waitT = none ∧ (after s a).starved = false
  ∧ a ∉ (armPeriodBody s).lift.queue
  ∧ (FaultListOk s → (armPeriodBody s).faults.holds .liftStarved (armNumber a) = false)

section
variable {s : State} {a : Arm}

theorem staged_ok (ok : (circuit s).Ok) : (circuit (staged s)).Ok :=
  KeepsCircuit.foldl armStage_keepsCircuit allArms _ (KeepsCircuit.of_circuit (s := s) rfl ok)
theorem after_ok (ok : (circuit s).Ok) : (circuit (armPeriodBody s)).Ok := armPeriodBody_keepsCircuit s ok

/-- An arm that the grant passes over ends the period as it met it, but for its commands. -/
theorem after_of_passed (passed : (weighGrant (staged s)).arms.get a = (staged s).arms.get a) :
    after s a = commandedRec s a ((staged s).arms.get a) := (armPeriodBody_get a s).trans (by rw [passed])

/-- The grant passes an arm over, or finds it at the head of the queue. -/
theorem grant_cases (s : State) (a : Arm) :
    (weighGrant (staged s)).arms.get a = (staged s).arms.get a
    ∨ (a ∈ (staged s).lift.queue ∧ after s a = commandedRec s a (grantedRec ((staged s).arms.get a))
      ∧ (armPeriodBody s).lift.holder = some a) := by
  rcases weighGrant_cases (staged s) with ⟨same, -⟩ | ⟨b, rest, queue, -, granted⟩
  · exact .inl (by rw [same])
  · by_cases e : a = b
    · subst e
      refine .inr ⟨queue ▸ List.mem_cons_self, ?_, ?_⟩
      · unfold after
        rw [armPeriodBody_get, granted, grantTo_get_same]
      · rw [armPeriodBody_lift, granted, grantTo_lift]
    · exact .inl (by rw [granted, grantTo_get_other _ e])

section
variable (ok : (circuit s).Ok) (fit : (s.armCfg a).fitted = true) {m : ArmRec}
  (moves : moved s a (entersIn s a) (made s a) = m)
include fit moves

theorem staged_moved : (staged s).arms.get a = m := (staged_get a s fit).trans moves

include ok

/-- An arm that does not wait after its transition ends the period in its state. -/
theorem after_of_rest (down : m.state ≠ .waitDown) (up : m.state ≠ .waitUp) : after s a = commandedRec s a m := by
  rcases grant_cases s a with passed | ⟨mem, -⟩
  · rw [after_of_passed passed, staged_moved fit moves]
  · have waits := ((staged_ok ok).queue a).1 mem
    change seat ((staged s).arms.get a).state = _ ∨ seat ((staged s).arms.get a).state = _ at waits
    rw [staged_moved fit moves, seat_waitDown, seat_waitUp] at waits
    exact absurd waits (not_or.2 ⟨down, up⟩)

/-- An arm that waits after its transition ends the period waiting, or granted the circuit. -/
theorem waits_of_moved (up : Bool) (state : m.state = if up then .waitUp else .waitDown) :
    Waits s a (s.armCfg a).motionLimit up m.origin m.waitT ∧ (after s a).floatT = m.floatT := by
  have done := after_ok ok
  have read : m.read = s.armCfg a := by
    obtain ⟨read, -⟩ := moved_steady a s (entersIn s a) (made s a)
    rw [moves] at read
    exact read
  rcases grant_cases s a with passed | ⟨mem, granted, holder⟩
  · have same := after_of_passed passed
    rw [staged_moved fit moves] at same
    have mem : a ∈ (armPeriodBody s).lift.queue := by
      refine (done.queue a).2 ?_
      show seat (after s a).state = _ ∨ seat (after s a).state = _
      rw [same, seat_waitDown, seat_waitUp]
      show m.state = _ ∨ m.state = _
      rw [state]
      cases up
      · exact .inl rfl
      · exact .inr rfl
    unfold Waits
    rw [same]
    exact ⟨⟨rfl, .inl ⟨state, rfl, mem⟩⟩, rfl⟩
  · rw [staged_moved fit moves] at granted
    unfold Waits Granted
    rw [granted]
    refine ⟨⟨rfl, .inr ⟨?_, holder, ?_, rfl, rfl, fun mem => done.not_holder_of_mem mem holder⟩⟩, rfl⟩
    · show (if m.state == .waitUp then ArmState.lifting else .lowering) = _
      rw [state]
      cases up <;> rfl
    · show some (1000 * m.read.motionLimit) = _
      rw [read]

end

theorem turnBack_gone (st) (ok : FaultList.ListOk s.faults) :
    Gone (turnBack a st s).faults .liftStarved (armNumber a) :=
  reportEnded_ends _ (FaultList.faultListOk_iff.2 ok) (by decide)
theorem turnUp_back (h : ((s.arms.get a).origin == .stowed || atStow s a) = true) :
    turnUp a s = turnBack a .stowed s := by
  unfold turnUp
  cases origin : (s.arms.get a).origin 
  case stowed => rfl
  all_goals rw [origin] at h; exact if_pos h
theorem turnDown_back (h : ((s.arms.get a).origin == .working || atWork s a) = true) :
    turnDown a s = turnBack a .working s := by
  unfold turnDown
  cases origin : (s.arms.get a).origin 
  case working => rfl
  all_goals rw [origin] at h; exact if_pos h

theorem ready_entry_visits : Sequences { s with lift.timer := some 20000 } (ready a (entry s a)) :=
  (entry_visits a s).sequences.trans (ready_visits a _).sequences
theorem ready_entry_get : (ready a (entry s a)).arms.get a = made s a := by
  rw [ready_get, readied_of_sequences a _ (entry_visits a s).sequences, entry_get]
  rfl
theorem ready_entry_atStow : atStow (ready a (entry s a)) a = atStow s a := by
  unfold atStow
  rw [ready_entry_visits.role, ready_entry_visits.armCfg]
  rfl
theorem ready_entry_atWork : atWork (ready a (entry s a)) a = atWork s a := by
  unfold atWork
  rw [ready_entry_visits.role, ready_entry_visits.armCfg]
  rfl

/-- An arm whose transition takes it out of the queue. -/
theorem leaves_of_back (ok : (circuit s).Ok) (fit : (s.armCfg a).fitted = true) (st : ArmState)
    (resting : st.inCircuit = false) (moves : moved s a (entersIn s a) (made s a) = leftRec st (made s a))
    (back : transition a (ready a (entry s a)) = turnBack a st (ready a (entry s a))) : Leaves s a st := by
  have done := after_ok ok
  have same := after_of_rest ok fit moves (fun e => by rw [show st = .waitDown from e] at resting; cases resting)
    (fun e => by rw [show st = .waitUp from e] at resting; cases resting)
  have out : a ∉ (armPeriodBody s).lift.queue := done.not_mem (by
    show (seat (after s a).state).inCircuit = false
    rw [same, seat_inCircuit]
    exact resting)
  refine ⟨by rw [same]; rfl, by rw [same]; rfl, by rw [same]; rfl, out, fun list => ?_⟩
  refine (armPeriodBody_gone a s ?_).holds
  rw [armStage_of_fitted a _ (((entry_visits a s).sequences.armCfg a).symm ▸ fit), back]
  exact turnBack_gone _ (ready_entry_visits.listOk (FaultList.faultListOk_iff.1 list))

/-! ## The outcome of a period by the state it finds an arm in -/

/-- A period ends with an arm that has joined the queue, waiting or already granted the circuit. -/
def Joins (s : State) (a : Arm) (limit : Nat) (up : Bool) (o : WaitOrigin) : Prop :=
  Waits s a limit up o (some 20000000) ∧ (after s a).floatT = none

section
variable (ok : (circuit s).Ok) (fit : (s.armCfg a).fitted = true)
include ok fit

theorem joins_of_moved {up : Bool} {o : WaitOrigin}
    (moves : moved s a (entersIn s a) (made s a) = joinedRec up o (made s a)) :
    Joins s a (s.armCfg a).motionLimit up o :=
  waits_of_moved ok fit moves up rfl

/-- An arm that its transition leaves alone, and that does not wait, ends the period in its state. -/
theorem stays_of_moved {st : ArmState} (moves : moved s a (entersIn s a) (made s a) = made s a)
    (state : (made s a).state = st) (down : st ≠ .waitDown) (up : st ≠ .waitUp) : (after s a).state = st := by
  rw [after_of_rest ok fit moves (state.symm ▸ down) (state.symm ▸ up)]
  exact state

/-- An arm whose motion ends gives the circuit back. -/
theorem ends_of_moved (st : ArmState) (resting : st.inCircuit = false)
    (moves : moved s a (entersIn s a) (made s a) = endedRec st (made s a)) :
    (after s a).state = st ∧ (after s a).motionT = none ∧ (armPeriodBody s).lift.holder ≠ some a := by
  have same := after_of_rest ok fit moves (fun e => by rw [show st = .waitDown from e] at resting; cases resting)
    (fun e => by rw [show st = .waitUp from e] at resting; cases resting)
  refine ⟨by rw [same]; rfl, by rw [same]; rfl, (after_ok ok).not_holder ?_⟩
  show (seat (after s a).state).inCircuit = false
  rw [same, seat_inCircuit]
  exact resting

theorem after_of_init (state : (made s a).state = .init) :
    (atStow s a = true → (after s a).state = .stowed)
    ∧ ((s.role (.armPosition a)).fresh = false → (after s a).state = .init)
    ∧ ((s.role (.armPosition a)).fresh = true → atStow s a = false →
      (entersIn s a = true → Joins s a (s.armCfg a).motionLimit true .midway)
      ∧ (entersIn s a = false → (after s a).state = .init)) := by
  refine ⟨fun stow => ?_, fun stale => ?_, fun fresh off => ⟨fun may => ?_, fun may => ?_⟩⟩
  · have fresh : (s.role (.armPosition a)).fresh = true := ((Bool.and_eq_true _ _).mp stow).1
    have moves : moved s a (entersIn s a) (made s a) = { made s a with state := .stowed } := by
      simp [moved, state, fresh, stow]
    rw [after_of_rest ok fit moves nofun nofun]
    rfl
  · exact stays_of_moved ok fit (by simp [moved, state, stale]) state nofun nofun
  · exact joins_of_moved ok fit (by simp [moved, state, fresh, off, may])
  · exact stays_of_moved ok fit (by simp [moved, state, off, may]) state nofun nofun

theorem after_of_stowed (state : (made s a).state = .stowed) :
    ((made s a).desiredDown = false ∨ entersIn s a = false → (after s a).state = .stowed)
    ∧ ((made s a).desiredDown = true → entersIn s a = true → Joins s a (s.armCfg a).motionLimit false .stowed) := by
  refine ⟨fun stays => ?_, fun down may => joins_of_moved ok fit (by simp [moved, state, down, may])⟩
  refine stays_of_moved ok fit ?_ state nofun nofun
  rcases stays with up | shut
  · simp [moved, state, up]
  · simp [moved, state, shut]

theorem after_of_lowering (state : (made s a).state = .lowering) :
    (atWork s a = true → (after s a).state = .working ∧ (after s a).motionT = none
      ∧ (armPeriodBody s).lift.holder ≠ some a)
    ∧ (atWork s a = false → (after s a).state = .lowering ∧ (armPeriodBody s).lift.holder = some a) := by
  refine ⟨fun work => ?_, fun off => ?_⟩
  · exact ends_of_moved ok fit .working rfl (by simp [moved, state, work])
  · have same : (after s a).state = .lowering :=
      stays_of_moved ok fit (by simp [moved, state, off]) state nofun nofun
    exact ⟨same, ((after_ok ok).holder a).2 (.inl (seat_lowering.2 same))⟩

theorem after_of_lifting (state : (made s a).state = .lifting) :
    (atStow s a = true → (after s a).state = .stowed ∧ (after s a).motionT = none
      ∧ (armPeriodBody s).lift.holder ≠ some a)
    ∧ (atStow s a = false → (after s a).state = .lifting ∧ (armPeriodBody s).lift.holder = some a) := by
  refine ⟨fun stow => ?_, fun off => ?_⟩
  · exact ends_of_moved ok fit .stowed rfl (by simp [moved, state, stow])
  · have same : (after s a).state = .lifting :=
      stays_of_moved ok fit (by simp [moved, state, off]) state nofun nofun
    exact ⟨same, ((after_ok ok).holder a).2 (.inr (seat_lifting.2 same))⟩

theorem after_of_working (state : (made s a).state = .working)
    (stays : (made s a).desiredDown = true ∨ entersIn s a = false) :
    (bentOn s a = true → (after s a).state = .float
      ∧ (after s a).floatT = some (1000 * (s.armCfg a).floatLimit))
    ∧ (bentOn s a = false → (after s a).state = .working) := by
  have shut : (!(made s a).desiredDown && entersIn s a) = false := by rcases stays with h | h <;> simp [h]
  refine ⟨fun bent => ?_, fun flat => ?_⟩
  · have moves : moved s a (entersIn s a) (made s a) =
        { made s a with state := .float, floatT := some (1000 * (s.armCfg a).floatLimit) } := by
      simp [moved, state, shut, bent]
    rw [after_of_rest ok fit moves nofun nofun]
    exact ⟨rfl, rfl⟩
  · exact stays_of_moved ok fit (by simp [moved, state, shut, flat]) state nofun nofun

theorem after_of_float (state : (made s a).state = .float)
    (stays : (made s a).desiredDown = true ∨ entersIn s a = false) :
    (bentOff s a = true → (after s a).state = .working ∧ (after s a).floatT = none)
    ∧ (bentOff s a = false → (after s a).state = .float) := by
  have shut : (!(made s a).desiredDown && entersIn s a) = false := by rcases stays with h | h <;> simp [h]
  refine ⟨fun bent => ?_, fun flat => ?_⟩
  · have moves : moved s a (entersIn s a) (made s a) = { made s a with state := .working, floatT := none } := by
      simp [moved, state, shut, bent]
    rw [after_of_rest ok fit moves nofun nofun]
    exact ⟨rfl, rfl⟩
  · exact stays_of_moved ok fit (by simp [moved, state, shut, flat]) state nofun nofun

/-- An arm on the road that should be UP joins. -/
theorem joins_of_turning (state : (made s a).state = .working ∨ (made s a).state = .float)
    (up : (made s a).desiredDown = false) (may : entersIn s a = true) :
    Joins s a (s.armCfg a).motionLimit true .working :=
  joins_of_moved ok fit (by rcases state with state | state <;> simp [moved, state, up, may])

theorem after_of_waitDown (state : (made s a).state = .waitDown) :
    ((made s a).desiredDown = true → Waits s a (s.armCfg a).motionLimit false (made s a).origin (made s a).waitT)
    ∧ ((made s a).desiredDown = false → ((made s a).origin == .stowed || atStow s a) = true → Leaves s a .stowed)
    ∧ ((made s a).desiredDown = false → ((made s a).origin == .stowed || atStow s a) = false →
      Waits s a (s.armCfg a).motionLimit true .midway (made s a).waitT) := by
  refine ⟨fun down => ?_, fun up back => ?_, fun up off => ?_⟩
  · have moves : moved s a (entersIn s a) (made s a) = made s a := by simp [moved, state, down]
    exact (waits_of_moved ok fit moves false state).1
  · refine leaves_of_back ok fit .stowed rfl (by simp only [moved, state, up, back]; rfl) ?_
    have turns : transition a (ready a (entry s a)) = turnUp a (ready a (entry s a)) := by
      unfold transition
      rw [ready_entry_get]
      simp only [state, up]
      rfl
    rw [turns]
    exact turnUp_back (by rw [ready_entry_get, ready_entry_atStow]; exact back)
  · have moves : moved s a (entersIn s a) (made s a) = turnedRec true (made s a) := by
      simp only [moved, state, up, off]; rfl
    exact (waits_of_moved ok fit moves true rfl).1

theorem after_of_waitUp (state : (made s a).state = .waitUp) :
    ((made s a).desiredDown = false → Waits s a (s.armCfg a).motionLimit true (made s a).origin (made s a).waitT)
    ∧ ((made s a).desiredDown = true → ((made s a).origin == .working || atWork s a) = true → Leaves s a .working)
    ∧ ((made s a).desiredDown = true → ((made s a).origin == .working || atWork s a) = false →
      Waits s a (s.armCfg a).motionLimit false .midway (made s a).waitT) := by
  refine ⟨fun up => ?_, fun down back => ?_, fun down off => ?_⟩
  · have moves : moved s a (entersIn s a) (made s a) = made s a := by simp [moved, state, up]
    exact (waits_of_moved ok fit moves true state).1
  · refine leaves_of_back ok fit .working rfl (by simp only [moved, state, down, back]; rfl) ?_
    have turns : transition a (ready a (entry s a)) = turnDown a (ready a (entry s a)) := by
      unfold transition
      rw [ready_entry_get]
      simp only [state, down]
      rfl
    rw [turns]
    exact turnDown_back (by rw [ready_entry_get, ready_entry_atWork]; exact back)
  · have moves : moved s a (entersIn s a) (made s a) = turnedRec false (made s a) := by
      simp only [moved, state, down, off]; rfl
    exact (waits_of_moved ok fit moves false rfl).1

theorem after_of_frozen (state : (made s a).state = .frozen) :
    ((made s a).frozenMotion = .none ∨ entersIn s a = false → (after s a).state = .frozen)
    ∧ (entersIn s a = true →
      ((made s a).frozenMotion = .up → Joins s a (s.armCfg a).motionLimit true (made s a).origin)
      ∧ ((made s a).frozenMotion = .down → Joins s a (s.armCfg a).motionLimit false (made s a).origin)) := by
  refine ⟨fun stays => ?_, fun may => ⟨fun up => ?_, fun down => ?_⟩⟩
  · refine stays_of_moved ok fit ?_ state nofun nofun
    rcases stays with rest | shut
    · simp [moved, state, rest]
    · cases motion : (made s a).frozenMotion <;> simp [moved, state, motion, shut]
  · exact joins_of_moved ok fit (by simp [moved, state, up, may])
  · exact joins_of_moved ok fit (by simp [moved, state, down, may])

theorem after_of_faulted (state : (made s a).state = .faulted) : (after s a).state = .faulted :=
  stays_of_moved ok fit (by simp [moved, state]) state nofun nofun

end

/-- A new holder has been granted the circuit under the conditions of a grant. -/
theorem after_grant (holds : (armPeriodBody s).lift.holder = some a) (new : s.lift.holder ≠ some a) :
    GrantAllowed s := by
  have stages := staged_visits s
  rw [armPeriodBody_lift] at holds
  rcases weighGrant_cases (staged s) with ⟨same, -⟩ | ⟨b, rest, queue, may, granted⟩
  · rw [same] at holds
    rcases stages.holder with kept | gone
    · exact absurd (kept.symm.trans holds) new
    · exact nomatch gone.symm.trans holds
  · obtain ⟨-, allowed⟩ := mayGrant_iff_allowed.1 may
    unfold GrantAllowed at allowed
    rw [stages.sequences.level, stages.sequences.shutdown, stages.sequences.role, stages.sequences.tables,
      stages.sequences.alloc] at allowed
    exact allowed

/-- A circuit left free under the conditions of a grant has no arm waiting. -/
theorem after_free (free : (armPeriodBody s).lift.holder = none) (allowed : GrantAllowed s) :
    (armPeriodBody s).lift.queue = [] := by
  have stages := staged_visits s
  rw [armPeriodBody_lift] at free ⊢
  rcases weighGrant_cases (staged s) with ⟨same, empty | no⟩ | ⟨b, rest, queue, may, granted⟩
  · rw [same]; exact empty
  · rw [same] at free
    refine absurd (mayGrant_iff_allowed.2 ⟨free, ?_⟩) no
    unfold GrantAllowed
    rw [stages.sequences.level, stages.sequences.shutdown, stages.sequences.role, stages.sequences.tables,
      stages.sequences.alloc]
    exact allowed
  · rw [granted, grantTo_lift] at free
    cases free

end

end Sys2Proof.LiftCircuit
end

section
/-! SUPPORT. The FROZEN arms that rejoin at the publication of a level below 3 (06 R106): the first two of their
order. -/

namespace Sys2Proof.LiftCircuit
open Sys2Proof Sys2Proof.Machine

/-! ## The order in which arms rejoin -/

/-- An arm waits to rejoin: FROZEN out of a wait or a motion. -/
def rejoins (arms : PerArm ArmRec) (a : Arm) : Bool :=
  (arms.get a).state == .frozen && (arms.get a).frozenMotion != .none

/-- One rejoining arm comes before another: frozen motion UP first, then by frozen rank (06 R106). -/
def ahead (arms : PerArm ArmRec) (b a : Arm) : Bool :=
  rejoins arms b && (((arms.get b).frozenMotion == .up && !(arms.get a).frozenMotion == .up)
    || (((arms.get b).frozenMotion == .up) == ((arms.get a).frozenMotion == .up)
      && decide ((arms.get b).frozenRank < (arms.get a).frozenRank)))

/-- The ranks of the rejoining arms are those a freeze gives: 1 to 3, no two the same (06 R104). -/
def Ranked (arms : PerArm ArmRec) : Prop :=
  ∀ a, rejoins arms a = true → 1 ≤ (arms.get a).frozenRank ∧ (arms.get a).frozenRank ≤ 3
    ∧ ∀ b, rejoins arms b = true → a ≠ b → (arms.get a).frozenRank ≠ (arms.get b).frozenRank

/-- The arms of one frozen motion and rank. -/
def frozenAt (arms : PerArm ArmRec) (m : Motion) (k : Nat) : List Arm :=
  allArms.filter fun a =>
    (arms.get a).state == .frozen && (arms.get a).frozenMotion == m && (arms.get a).frozenRank == k

theorem frozenOrder_eq (arms : PerArm ArmRec) : frozenOrder arms =
    [Motion.up, Motion.down].flatMap fun m => [1, 2, 3].flatMap (frozenAt arms m) := rfl

section
variable {arms : PerArm ArmRec}

theorem mem_frozenAt {m : Motion} {k : Nat} {a : Arm} : a ∈ frozenAt arms m k ↔
    (arms.get a).state = .frozen ∧ (arms.get a).frozenMotion = m ∧ (arms.get a).frozenRank = k := by
  simp [frozenAt, Profiles.mem_allArms, and_assoc]

theorem rejoins_iff {a : Arm} : rejoins arms a = true ↔
    (arms.get a).state = .frozen ∧ ((arms.get a).frozenMotion = .up ∨ (arms.get a).frozenMotion = .down) := by
  unfold rejoins
  cases (arms.get a).frozenMotion <;> simp

theorem mem_frozenOrder {a : Arm} : a ∈ frozenOrder arms ↔
    rejoins arms a = true ∧ 1 ≤ (arms.get a).frozenRank ∧ (arms.get a).frozenRank ≤ 3 := by
  have ranks : (arms.get a).frozenRank ∈ [1, 2, 3] ↔
      1 ≤ (arms.get a).frozenRank ∧ (arms.get a).frozenRank ≤ 3 := by
    simp only [List.mem_cons, List.not_mem_nil, or_false]
    omega
  have motions : (arms.get a).frozenMotion ∈ [Motion.up, Motion.down] ↔
      (arms.get a).frozenMotion = .up ∨ (arms.get a).frozenMotion = .down := by simp
  rw [← ranks, rejoins_iff, ← motions, frozenOrder_eq]
  simp only [List.mem_flatMap, mem_frozenAt]
  constructor
  · rintro ⟨m, moves, k, rank, state, rfl, rfl⟩
    exact ⟨⟨state, moves⟩, rank⟩
  · rintro ⟨⟨state, moves⟩, rank⟩
    exact ⟨_, moves, _, rank, state, rfl, rfl⟩

/-- The order puts arms ahead of others by motion and rank. -/
theorem frozenOrder_pairwise (ranked : Ranked arms) : (frozenOrder arms).Pairwise fun b a => ahead arms b a = true := by
  have rejoins_at {m k a} (moves : m = .up ∨ m = .down) (mem : a ∈ frozenAt arms m k) : rejoins arms a = true := by
    obtain ⟨state, motion, -⟩ := mem_frozenAt.1 mem
    exact rejoins_iff.2 ⟨state, motion ▸ moves⟩
  have same {m k} (moves : m = .up ∨ m = .down) :
      (frozenAt arms m k).Pairwise fun b a => ahead arms b a = true := by
    have nodup : (frozenAt arms m k).Nodup := List.Nodup.filter _ (by decide)
    refine nodup.imp_of_mem fun {b a} hb ha ne => ?_
    obtain ⟨-, -, distinct⟩ := ranked b (rejoins_at moves hb)
    exact absurd ((mem_frozenAt.1 hb).2.2.trans (mem_frozenAt.1 ha).2.2.symm) (distinct a (rejoins_at moves ha) ne)
  have byRank {m k k' b a} (moves : m = .up ∨ m = .down) (less : k < k') (hb : b ∈ frozenAt arms m k)
      (ha : a ∈ frozenAt arms m k') : ahead arms b a = true := by
    obtain ⟨-, motion_b, rank_b⟩ := mem_frozenAt.1 hb
    obtain ⟨-, motion_a, rank_a⟩ := mem_frozenAt.1 ha
    simp [ahead, rejoins_at moves hb, motion_a, motion_b, rank_a, rank_b, less]
  have byMotion {k k' b a} (hb : b ∈ frozenAt arms .up k) (ha : a ∈ frozenAt arms .down k') :
      ahead arms b a = true := by
    obtain ⟨-, motion_b, -⟩ := mem_frozenAt.1 hb
    obtain ⟨-, motion_a, -⟩ := mem_frozenAt.1 ha
    simp [ahead, rejoins_at (.inl rfl) hb, motion_a, motion_b]
  have ranks {m} (moves : m = .up ∨ m = .down) :
      ([1, 2, 3].flatMap (frozenAt arms m)).Pairwise fun b a => ahead arms b a = true := by
    refine List.pairwise_flatMap.2 ⟨fun k _ => same moves, ?_⟩
    have increasing : [1, 2, 3].Pairwise (· < ·) := by decide
    exact increasing.imp fun less b hb a ha => byRank moves less hb ha
  rw [frozenOrder_eq]
  refine List.pairwise_flatMap.2 ⟨fun m mem => ranks (by simpa using mem), ?_⟩
  simp only [List.pairwise_cons, List.mem_singleton, forall_eq, List.not_mem_nil, List.Pairwise.nil, and_true,
    false_implies, implies_true, List.mem_flatMap]
  rintro b ⟨k, -, hb⟩ a ⟨k', -, ha⟩
  exact byMotion hb ha

theorem ahead_iff {a b : Arm} : ahead arms b a = true ↔ rejoins arms b = true
    ∧ (((arms.get b).frozenMotion == .up) = true ∧ ((arms.get a).frozenMotion == .up) = false
      ∨ ((arms.get b).frozenMotion == .up) = ((arms.get a).frozenMotion == .up)
        ∧ (arms.get b).frozenRank < (arms.get a).frozenRank) := by
  unfold ahead
  rw [Bool.and_eq_true, Bool.or_eq_true, Bool.and_eq_true, Bool.and_eq_true, Bool.not_eq_true', decide_eq_true_eq]
  exact and_congr_right' (or_congr_right (and_congr_left' beq_iff_eq))

/-- No two arms are each ahead of the other. -/
theorem ahead_asymm {a b : Arm} (h : ahead arms b a = true) : ahead arms a b = false := by
  refine Bool.eq_false_iff.2 fun k => ?_
  obtain ⟨-, h⟩ := ahead_iff.1 h
  obtain ⟨-, k⟩ := ahead_iff.1 k
  rcases h with ⟨up_b, down_a⟩ | ⟨same, less⟩ <;> rcases k with ⟨up_a, down_b⟩ | ⟨same', less'⟩
  · exact nomatch up_b.symm.trans down_b
  · exact nomatch up_b.symm.trans (same'.symm.trans down_a)
  · exact nomatch up_a.symm.trans (same.symm.trans down_b)
  · omega

theorem frozenOrder_nodup (ranked : Ranked arms) : (frozenOrder arms).Nodup :=
  (frozenOrder_pairwise ranked).imp fun {b a} h e => by
    subst e
    exact Bool.false_ne_true ((ahead_asymm h).symm.trans h)

/-- The place of a rejoining arm in the order is the number of arms ahead of it. -/
theorem countP_ahead (ranked : Ranked arms) {a : Arm} {l₁ l₂ : List Arm} (split : frozenOrder arms = l₁ ++ a :: l₂) :
    [Arm.sl, .sr, .mb].countP (fun b => ahead arms b a) = l₁.length := by
  have pairwise := frozenOrder_pairwise ranked
  have members (b : Arm) : b ∈ allArms.filter (rejoins arms) ↔ b ∈ frozenOrder arms := by
    rw [List.mem_filter, mem_frozenOrder]
    refine ⟨fun ⟨_, h⟩ => ?_, fun h => ⟨Profiles.mem_allArms b, h.1⟩⟩
    obtain ⟨low, high, -⟩ := ranked b h
    exact ⟨h, low, high⟩
  have perm : (allArms.filter (rejoins arms)).Perm (frozenOrder arms) :=
    (List.perm_ext_iff_of_nodup (List.Nodup.filter _ (by decide)) (frozenOrder_nodup ranked)).2 members
  have only : allArms.countP (fun b => ahead arms b a) =
      (allArms.filter (rejoins arms)).countP fun b => ahead arms b a := by
    rw [List.countP_filter]
    refine List.countP_congr fun b _ => ?_
    rw [Bool.and_eq_true]
    exact (and_iff_left_of_imp fun h => (ahead_iff.1 h).1).symm
  show allArms.countP _ = _
  rw [only, perm.countP_eq, split, List.countP_append, List.countP_cons]
  rw [split] at pairwise
  obtain ⟨-, rest, first⟩ := List.pairwise_append.1 pairwise
  obtain ⟨behind, -⟩ := List.pairwise_cons.1 rest
  have all : l₁.countP (fun b => ahead arms b a) = l₁.length :=
    List.countP_eq_length.2 fun b mem => first b mem a List.mem_cons_self
  have none : l₂.countP (fun b => ahead arms b a) = 0 :=
    List.countP_eq_zero.2 fun b mem => Bool.eq_false_iff.1 (ahead_asymm (behind b mem))
  have self : ¬ahead arms a a = true := fun h => Bool.false_ne_true ((ahead_asymm h).symm.trans h)
  rw [all, none, if_neg self]
  rfl

/-- An arm is among the first two of the order when fewer than two are ahead of it. -/
theorem mem_take_frozenOrder (ranked : Ranked arms) {a : Arm} : a ∈ (frozenOrder arms).take 2 ↔
    rejoins arms a = true ∧ [Arm.sl, .sr, .mb].countP (fun b => ahead arms b a) < 2 := by
  by_cases mem : a ∈ frozenOrder arms
  · obtain ⟨l₁, l₂, split⟩ := List.append_of_mem mem
    have nodup := frozenOrder_nodup ranked
    have rejoining := (mem_frozenOrder.1 mem).1
    rw [countP_ahead ranked split, split, List.take_append]
    rw [split] at nodup
    have new : a ∉ l₁ := fun h => (List.nodup_append.1 nodup).2.2 a h a List.mem_cons_self rfl
    simp only [rejoining, true_and, List.mem_append]
    constructor
    · rintro (h | h)
      · exact absurd (List.mem_of_mem_take h) new
      · by_contra full
        rw [show 2 - l₁.length = 0 by omega] at h
        cases h
    · intro room
      refine .inr ?_
      rw [show 2 - l₁.length = (2 - l₁.length - 1) + 1 by omega]
      exact List.mem_cons_self
  · refine ⟨fun h => absurd (List.mem_of_mem_take h) mem, fun ⟨h, _⟩ => absurd (mem_frozenOrder.2 ⟨h, ?_⟩) mem⟩
    obtain ⟨low, high, -⟩ := ranked a h
    exact ⟨low, high⟩

end

/-! ## Rejoining one after another -/

/-- The record of an arm that rejoins, which keeps its wait origin (06 R106). -/
def rejoinedRec (r : ArmRec) : ArmRec := joinedRec (r.frozenMotion == .up) r.origin r

theorem queueInsert_last {arms : PerArm ArmRec} {up : Bool} {a : Arm} {q : List Arm}
    (ups : up = true → ∀ x ∈ q, (arms.get x).state = .waitUp) : queueInsert arms up a q = q ++ [a] := by
  unfold queueInsert
  cases up with
  | false => rfl
  | true =>
    have all : ∀ x ∈ q, ((arms.get x).state == .waitUp) = true := fun x mem => beq_iff_eq.2 (ups rfl x mem)
    dsimp only
    rw [if_pos rfl, List.takeWhile_eq_self_iff.2 all, List.dropWhile_eq_nil_iff.2 all]

theorem rejoinArm_of_room {s : State} {a : Arm} (frozen : rejoins s.arms a = true)
    (may : mayJoin s s.faults.level = true) :
    rejoinArm s a = join a ((s.arms.get a).frozenMotion == .up) (s.arms.get a).origin s := by
  obtain ⟨state, motion⟩ := rejoins_iff.1 frozen
  unfold rejoinArm
  dsimp only
  rw [state, may]
  rcases motion with motion | motion <;> rw [motion] <;> rfl
theorem rejoinArm_of_full {s : State} (a : Arm) (full : ¬mayJoin s s.faults.level = true) : rejoinArm s a = s := by
  unfold rejoinArm
  refine if_neg fun h => full ((Bool.and_eq_true _ _).mp h).2

/-- Frozen arms that rejoin one after another, those that lift first, take the places that are left, in their order. -/
theorem foldl_rejoinArm (l : List Arm) : ∀ s : State, s.faults.level < 3 → s.shutdown.hold = false → l.Nodup →
    (∀ a ∈ l, rejoins s.arms a = true) →
    (l.Pairwise fun b a => (s.arms.get a).frozenMotion = .up → (s.arms.get b).frozenMotion = .up) →
    (∀ a ∈ l, (s.arms.get a).frozenMotion = .up → ∀ x ∈ s.lift.queue, (s.arms.get x).state = .waitUp) →
    (l.foldl rejoinArm s).lift =
        { s.lift with queue := s.lift.queue ++ l.take (2 - s.lift.queue.length) }
      ∧ ∀ a, (l.foldl rejoinArm s).arms.get a =
        if a ∈ l.take (2 - s.lift.queue.length) then rejoinedRec (s.arms.get a) else s.arms.get a := by
  induction l with
  | nil => exact fun s _ _ _ _ _ _ => ⟨by simp, fun a => by simp⟩
  | cons b l ih =>
    intro s level hold nodup frozen upFirst waiting
    obtain ⟨new, nodup⟩ := List.nodup_cons.1 nodup
    obtain ⟨before, upFirst⟩ := List.pairwise_cons.1 upFirst
    rw [List.foldl_cons]
    by_cases room : s.lift.queue.length < 2
    · have may : mayJoin s s.faults.level = true := mayJoin_iff.2 ⟨room, level, hold⟩
      have joined := rejoinArm_of_room (frozen b List.mem_cons_self) may
      let t := join b ((s.arms.get b).frozenMotion == .up) (s.arms.get b).origin s
      have same : t.arms.get b = rejoinedRec (s.arms.get b) := join_get b s ..
      have other {c : Arm} (h : c ≠ b) : t.arms.get c = s.arms.get c := PerArm.get_set_other _ _ h
      have queue : t.lift = { s.lift with queue := s.lift.queue ++ [b] } := by
        have last := queueInsert_last (arms := s.arms) (up := (s.arms.get b).frozenMotion == .up) (a := b)
          fun up x mem => waiting b List.mem_cons_self (beq_iff_eq.1 up) x mem
        show ({ s.lift with queue := queueInsert s.arms _ b s.lift.queue } : Lift) = _
        rw [last]
      have off {c : Arm} (mem : c ∈ l) : c ≠ b := fun e => new (e ▸ mem)
      obtain ⟨lift, arms⟩ := ih t level hold nodup
        (fun a mem => by
          unfold rejoins
          rw [other (off mem)]
          exact frozen a (List.mem_cons_of_mem _ mem))
        (upFirst.imp_of_mem fun {x y} hx hy h => by rwa [other (off hx), other (off hy)])
        (fun a mem up x hx => by
          rw [other (off mem)] at up
          rw [queue] at hx
          rcases List.mem_append.1 hx with hx | hx
          · have waits := waiting a (List.mem_cons_of_mem _ mem) up x hx
            have ne : x ≠ b := fun e => by
              obtain ⟨state, -⟩ := rejoins_iff.1 (frozen b List.mem_cons_self)
              rw [← e, waits] at state
              cases state
            rw [other ne]
            exact waits
          · obtain rfl := List.mem_singleton.1 hx
            rw [same]
            unfold rejoinedRec
            rw [before a mem up]
            rfl)
      have left : 2 - s.lift.queue.length = (2 - t.lift.queue.length) + 1 := by
        rw [queue]
        simp only [List.length_append, List.length_singleton]
        omega
      rw [joined, left, List.take_succ_cons]
      refine ⟨?_, fun a => ?_⟩
      · rw [lift, queue]
        simp
      · rw [arms a]
        by_cases e : a = b
        · subst e
          have absent : a ∉ l.take (2 - t.lift.queue.length) := fun h => new (List.mem_of_mem_take h)
          rw [if_neg absent, same, if_pos List.mem_cons_self]
        · simp only [List.mem_cons, e, false_or, other e]
    · have full : ¬mayJoin s s.faults.level = true := fun h => room (mayJoin_iff.1 h).1
      have none : 2 - s.lift.queue.length = 0 := by omega
      have rest := ih s level hold nodup (fun a mem => frozen a (List.mem_cons_of_mem _ mem)) upFirst
        (fun a mem => waiting a (List.mem_cons_of_mem _ mem))
      rw [rejoinArm_of_full b full]
      rw [none] at rest ⊢
      exact rest

/-- With an empty queue the first two of the order rejoin. -/
theorem rejoinFrozen_of_empty {s : State} (level : s.faults.level < 3) (hold : s.shutdown.hold = false)
    (empty : s.lift.queue = []) (ranked : Ranked s.arms) :
    (rejoinFrozen s).lift = { s.lift with queue := (frozenOrder s.arms).take 2 }
    ∧ ∀ a, (rejoinFrozen s).arms.get a =
      if a ∈ (frozenOrder s.arms).take 2 then rejoinedRec (s.arms.get a) else s.arms.get a := by
  have upFirst : (frozenOrder s.arms).Pairwise fun b a =>
      (s.arms.get a).frozenMotion = .up → (s.arms.get b).frozenMotion = .up :=
    (frozenOrder_pairwise ranked).imp fun {b a} h up => by
      rcases (ahead_iff.1 h).2 with ⟨first, -⟩ | ⟨same, -⟩
      · exact beq_iff_eq.1 first
      · exact beq_iff_eq.1 (same.trans (beq_iff_eq.2 up))
  have folded := foldl_rejoinArm (frozenOrder s.arms) s level hold (frozenOrder_nodup ranked)
    (fun a mem => (mem_frozenOrder.1 mem).1) upFirst (by rw [empty]; exact fun _ _ _ _ h => nomatch h)
  rw [empty] at folded
  exact folded

/-- No FROZEN arm may rejoin any more: the queue is full, or none is left. -/
def Settled (s : State) : Prop := 2 ≤ s.lift.queue.length ∨ frozenOrder s.arms = []

theorem rejoinFrozen_settled {s : State} (h : Settled s) : rejoinFrozen s = s := by
  unfold rejoinFrozen
  rcases h with full | none
  · have stays : ∀ l : List Arm, l.foldl rejoinArm s = s := fun l => by
      induction l with
      | nil => rfl
      | cons a l ih =>
        rw [List.foldl_cons, rejoinArm_of_full a fun may => by
          obtain ⟨room, -⟩ := mayJoin_iff.1 may
          omega]
        exact ih
    exact stays _
  · rw [none]; rfl

/-- Rejoining leaves no further arm to rejoin. -/
theorem settled_of_rejoined {s t : State} (queue : t.lift.queue = (frozenOrder s.arms).take 2)
    (arms : ∀ a, t.arms.get a =
      if a ∈ (frozenOrder s.arms).take 2 then rejoinedRec (s.arms.get a) else s.arms.get a) : Settled t := by
  by_cases full : 2 ≤ t.lift.queue.length
  · exact .inl full
  refine .inr (List.eq_nil_iff_forall_not_mem.2 fun a mem => ?_)
  have all : (frozenOrder s.arms).take 2 = frozenOrder s.arms := by
    refine List.take_of_length_le ?_
    rw [queue, List.length_take] at full
    omega
  rw [mem_frozenOrder, rejoins_iff, arms a] at mem
  split at mem
  · obtain ⟨⟨state, -⟩, -⟩ := mem
    unfold rejoinedRec joinedRec at state
    revert state
    cases (s.arms.get a).frozenMotion == .up <;> exact nofun
  · next off =>
    rw [all, mem_frozenOrder, rejoins_iff] at off
    exact off mem

end Sys2Proof.LiftCircuit
end

section
/-! SUPPORT. A level below 3 to the end of an event: no report of a send raises it to 3 (09 R154), so the arms that have
rejoined at its publication stay as they are. -/

namespace Sys2Proof.LiftCircuit
open Sys2Proof Sys2Proof.Machine Sys2Proof.Cutoff

/-! ## Predicates that the sends keep (09) -/

/-- A predicate that survives what the sends do to a state: they write the channels, the ports and the change mark, they
announce a record, and they refuse a frame with SEND_WINDOW. -/
structure SendsKeep (P : State → Prop) : Prop where
  channel : ∀ ch f s, P s → P (onChan ch f s)
  port : ∀ (s : State) q f, P s → P (s.onPort q f)
  mark : ∀ s, P s → P (markFaultChange s)
  announce : ∀ (s : State) o, P s → P { s with faults := s.faults.announce o }
  refuse : ∀ n s, P s → P (reportOnce .sendWindow n 1 s)

theorem holds_ite {P : State → Prop} {c : Prop} [Decidable c] {t u : State} (h : P t) (k : P u) :
    P (if c then t else u) := by
  split
  · exact h
  · exact k

namespace SendsKeep
variable {P : State → Prop} (keep : SendsKeep P)
include keep

theorem placeChannelFrame (ch n q) {s : State} (h : P s) : P (placeChannelFrame ch n q s) := by
  have announced (t) {u : State} (h : P u) : P (announceTop t u) := by
    refine holds_ite ?_ h
    split
    · exact keep.announce _ _ h
    · exact h
  exact announced _ (keep.channel _ _ _ (keep.port _ _ _ h))
theorem stall (ch n q) {s : State} (h : P s) : P (stall ch n q s) := by
  unfold Machine.stall
  exact keep.channel _ _ _ (keep.port _ _ _ h)
theorem offerOne (ch) {s : State} (h : P s) : P (offerOne ch s).2 := by
  unfold Machine.offerOne
  dsimp only
  split
  · split
    · exact h
    · split
      · exact keep.stall _ _ _ h
      · exact keep.placeChannelFrame _ _ _ h
  · exact keep.refuse _ _ (keep.channel _ _ _ h)
theorem offerRun (k ch) {s : State} (h : P s) : P (offerRun k ch s) := by
  induction k generalizing s with
  | zero => exact h
  | succ k ih =>
    have offered := keep.offerOne ch h
    unfold Machine.offerRun
    split
    · next x heq =>
      rw [heq] at offered
      have stepped : P (stepPosition ch x) := keep.channel _ _ _ offered
      exact holds_ite (ih stepped) stepped
    · next x heq => rw [heq] at offered; exact offered

section
variable {start : Fin 6 → State → State} (starts : ∀ ch s, P s → P (start ch s))
include starts

theorem triggerWith (ch) {s : State} (h : P s) : P (triggerWith start ch s) :=
  holds_ite (holds_ite (starts _ _ (keep.channel _ _ _ h)) (keep.channel _ _ _ h)) h
theorem countSend (ch) {s : State} (h : P s) : P (countSend start ch s) := by
  have notified (b : Bool) {u : State} (h : P u) : P (if b then markFaultChange u else u) :=
    holds_ite (keep.mark _ h) h
  refine holds_ite h (holds_ite (notified _ ?_) (keep.channel _ _ _ h))
  have done := keep.channel ch (fun c => { c with enable := false, pending := false, done := true }) _
    (keep.channel ch (fun c => { c with remaining := (s.chan ch).remaining - 1 }) _ h)
  split
  · exact done
  · exact keep.triggerWith starts _ done
theorem completeWith (ch) {s : State} (h : P s) : P (completeWith start ch s) := by
  have again {u : State} (h : P u) :
      P (if (u.chan ch).enable && (u.chan ch).pending && (u.chan ch).state == .idle then start ch u else u) :=
    holds_ite (starts _ _ h) h
  have idle := keep.channel ch (fun c => { c with state := .idle, stop := false }) _ h
  exact again (holds_ite idle (keep.countSend starts ch idle))

end

theorem startSend (n ch) {s : State} (h : P s) : P (startSend n ch s) := by
  induction n generalizing ch s with
  | zero => exact h
  | succ n ih =>
    have begun : P (beginSend ch s) := by unfold beginSend; exact keep.channel _ _ _ h
    have offered : P (Machine.offerRun (s.chanCfg ch).runLen ch (beginSend ch s)) := keep.offerRun _ _ begun
    exact holds_ite (keep.completeWith (fun ch _ => ih ch) ch offered) offered
theorem giveTrigger (ch) {s : State} (h : P s) : P (giveTrigger ch s) :=
  keep.triggerWith (fun ch _ => keep.startSend _ ch) ch h

end SendsKeep

/-! ## Records below severity 3 -/

/-- Every record of the list is below severity 3. -/
def Mild (f : Faults) : Prop := ∀ r ∈ f.records, r.severity < 3

theorem mild_iff {f : Faults} : Mild f ↔
    (∀ (i : Fin 15) (r : FaultRec), f.places[i] = some r → r.severity < 3)
    ∧ ∀ r, f.aggregate = some r → r.severity < 3 :=
  ⟨fun h => ⟨fun i r e => h r (mem_records.2 (.inl ⟨i, e⟩)), fun r e => h r (mem_records.2 (.inr e))⟩,
   fun ⟨places, aggregate⟩ r mem => (mem_records.1 mem).elim (fun ⟨i, e⟩ => places i r e) (aggregate r)⟩

section
variable {f g : Faults}

theorem Mild.congr (h : Mild f) (places : g.places = f.places) (aggregate : g.aggregate = f.aggregate) : Mild g := by
  rw [mild_iff] at *
  rw [places, aggregate]
  exact h
theorem Mild.setPlace (h : Mild f) {i : Fin 15} {o : Option FaultRec} (places : g.places = f.places.set i o)
    (aggregate : g.aggregate = f.aggregate) (new : ∀ r, o = some r → r.severity < 3) : Mild g := by
  obtain ⟨old, full⟩ := mild_iff.1 h
  refine mild_iff.2 ⟨fun j r e => ?_, aggregate ▸ full⟩
  rcases FaultList.place_of_set (places ▸ e) with ⟨-, here⟩ | ⟨-, there⟩
  · exact new r here
  · exact old j r there
theorem Mild.setAggregate (h : Mild f) (places : g.places = f.places)
    (new : ∀ r, g.aggregate = some r → r.severity < 3) : Mild g := by
  obtain ⟨old, -⟩ := mild_iff.1 h
  exact mild_iff.2 ⟨places ▸ old, new⟩
theorem Mild.place (h : Mild f) {i : Fin 15} {r : FaultRec} (here : f.places[i] = some r) : r.severity < 3 :=
  (mild_iff.1 h).1 i r here
theorem Mild.full (h : Mild f) {r : FaultRec} (here : f.aggregate = some r) : r.severity < 3 := (mild_iff.1 h).2 r here

end

theorem takeReport_mild {r : FaultRec} {sev : Fin 4} (low : sev < 3) (h : r.severity < 3) (counted) :
    (r.takeReport counted sev).severity < 3 := max_lt h low
theorem ended_severity {r q : FaultRec} (h : r.ended = some q) : q.severity = r.severity := by
  unfold FaultRec.ended at h
  split at h
  · cases h; rfl
  · cases h

section
variable {s : State} {sev : Fin 4} (low : sev < 3) (h : Mild s.faults)
include h

theorem reportEnded_mild (k n) : Mild (reportEnded k n s).faults := by
  have settled : Mild (s.faults.settled k n) := h.congr rfl rfl
  unfold reportEnded
  dsimp only
  split
  · next i _ =>
    refine settled.setPlace (i := i) rfl rfl fun r e => ?_
    obtain ⟨q, here, ended⟩ := Option.bind_eq_some_iff.1 e
    exact ended_severity ended ▸ settled.place here
  · split
    · refine settled.setAggregate rfl fun r e => ?_
      obtain ⟨q, here, rfl⟩ := Option.map_eq_some_iff.1 e
      have low := settled.full here
      exact low
    · exact settled

include low

theorem mergeReport_mild (k n counted) : Mild (mergeReport k n sev counted s).faults := by
  unfold mergeReport
  split
  · refine h.setAggregate rfl fun r e => ?_
    cases e
    exact low
  · next a here =>
    rw [markFaultChangeIf_faults]
    refine h.setAggregate rfl fun r e => ?_
    cases e
    exact takeReport_mild low (h.full here) counted
theorem placeRecord_mild (i k n) : Mild (placeRecord i k n sev s).faults :=
  h.setPlace (i := i) (o := some (newRecord s k n sev)) rfl rfl fun r e => by
    cases e
    exact low
theorem enterRecord_mild (k n) : Mild (enterRecord k n sev s).faults := by
  unfold enterRecord
  split
  · exact placeRecord_mild low h _ _ _
  · split
    · next r _ =>
      have apart : Mild ({ s with faults := s.faults.settled r.kind r.subject } : State).faults := h.congr rfl rfl
      exact placeRecord_mild low apart _ _ _
    · exact mergeReport_mild low h _ _ _
theorem reportBegun_mild (k n) : Mild (reportBegun k n sev s).faults := by
  have settled : Mild ({ s with faults := s.faults.settled k n } : State).faults := h.congr rfl rfl
  unfold reportBegun
  dsimp only
  split
  · next i found =>
    obtain ⟨r, here, -⟩ := find_some found
    rw [here]
    dsimp only
    rw [markFaultChangeIf_faults]
    refine settled.setPlace (i := i) rfl rfl fun q e => ?_
    cases e
    exact takeReport_mild low (settled.place here) _
  · split
    · exact mergeReport_mild low settled _ _ _
    · exact enterRecord_mild low settled _ _

end

theorem announce_mild {f : Faults} (h : Mild f) (o) : Mild (f.announce o) := by
  have marked (r : FaultRec) : (if r.order = o then { r with announced := true } else r).severity = r.severity := by
    split <;> rfl
  refine mild_iff.2 ⟨fun i r e => ?_, fun r e => ?_⟩
  · have e : (f.places.map (Option.map _))[i] = some r := e
    rw [Fin.getElem_fin, Vector.getElem_map] at e
    obtain ⟨q, here, rfl⟩ := Option.map_eq_some_iff.1 e
    exact (marked q).symm ▸ h.place here
  · obtain ⟨q, here, rfl⟩ := Option.map_eq_some_iff.1 e
    exact (marked q).symm ▸ h.full here

theorem mild_sendsKeep : SendsKeep fun s => Mild s.faults :=
  ⟨fun _ _ _ => id, fun _ _ _ => id, fun _ => id, fun _ o h => announce_mild h o,
    fun _ _ h => reportEnded_mild (reportBegun_mild (by decide) h _ _) _ _⟩

/-- Without the latch a list below severity 3 forms a level below 3 (10 R161). -/
theorem formed_of_mild {f : Faults} (latch : f.latch = false) (h : Mild f) : f.formed < 3 := by
  have fold (l : List FaultRec) : ∀ x : Fin 4, x < 3 → (∀ r ∈ l, r.severity < 3) →
      l.foldl (fun x r => max x r.severity) x < 3 := by
    induction l with
    | nil => exact fun _ low _ => low
    | cons r l ih =>
      exact fun x low mild => ih _ (max_lt low (mild r List.mem_cons_self)) fun q mem =>
        mild q (List.mem_cons_of_mem _ mem)
  unfold Faults.formed
  rw [latch]
  exact fold f.records 0 (by decide) h

/-! ## The end of an event at a level below 3 -/

/-- No level 3 is published any more and no FROZEN arm rejoins: arms and lift circuit stay to the end of the event. -/
structure Calm (arms : PerArm ArmRec) (lift : Lift) (s : State) : Prop where
  latch : s.faults.latch = false
  level : s.faults.level ≠ 3
  mild : Mild s.faults
  arms : s.arms = arms
  lift : s.lift = lift

section
variable {arms : PerArm ArmRec} {lift : Lift} {s : State}

theorem publish_below (l : Fin 4) (below : l ≠ 3) (s : State) :
    (publish l s).arms = (rejoinFrozen (markFaultChange { s with faults.level := l })).arms
    ∧ (publish l s).lift = (rejoinFrozen (markFaultChange { s with faults.level := l })).lift := by
  unfold publish
  dsimp only
  rw [if_neg below]
  split
  · exact ⟨closeBanks_arms .., closeBanks_lift ..⟩
  · exact ⟨rfl, rfl⟩

theorem Calm.formed (h : Calm arms lift s) : s.faults.formed ≠ 3 := (formed_of_mild h.latch h.mild).ne

/-- A publication below 3 finds no arm to rejoin. -/
theorem Calm.publish {l : Fin 4} (settled : 2 ≤ lift.queue.length ∨ frozenOrder arms = []) (below : l ≠ 3)
    (h : Calm arms lift s) : Calm arms lift (publish l s) := by
  have quiet : rejoinFrozen (markFaultChange { s with faults.level := l }) =
      markFaultChange { s with faults.level := l } := by
    refine rejoinFrozen_settled ?_
    show 2 ≤ s.lift.queue.length ∨ frozenOrder s.arms = []
    rw [h.arms, h.lift]
    exact settled
  obtain ⟨same_arms, same_lift⟩ := publish_below l below s
  have faults := publish_faults_below l s below
  rw [quiet] at same_arms same_lift
  exact ⟨by rw [faults]; exact h.latch, by rw [faults]; exact below, by rw [faults]; exact h.mild.congr rfl rfl,
    same_arms.trans h.arms, same_lift.trans h.lift⟩

theorem Calm.clearMarks (h : Calm arms lift s) : Calm arms lift { s with ev := .none } :=
  ⟨h.latch, h.level, h.mild, h.arms, h.lift⟩

variable (settled : 2 ≤ lift.queue.length ∨ frozenOrder arms = [])
include settled

theorem Calm.formLevel (h : Calm arms lift s) : Calm arms lift (formLevel s) := by
  have once {s : State} (h : Calm arms lift s) : Calm arms lift (formOnce s) :=
    holds_ite h (h.publish settled h.formed)
  exact once (once h)

theorem Calm.giveTriggers (h : Calm arms lift s) : Calm arms lift (giveTriggers s) := by
  have one {u : State} (ch) (h : Calm arms lift u) : Calm arms lift (Machine.formLevel (giveTrigger ch u)) := by
    have sends := giveTrigger_sends ch u
    obtain ⟨latch, level⟩ := Prod.mk.inj (Cutoff.alarm_unsent.giveTrigger ch u)
    refine Calm.formLevel settled ⟨latch.trans h.latch, level ▸ h.level, ?_, sends.arms.trans h.arms,
      sends.lift.trans h.lift⟩
    exact mild_sendsKeep.giveTrigger ch h.mild
  have fold (l : List (Fin 6)) : ∀ u : State, Calm arms lift u →
      Calm arms lift (l.foldl (fun u ch => Machine.formLevel (giveTrigger ch u)) u) := by
    induction l with
    | nil => exact fun _ => id
    | cons ch l ih => exact fun u h => ih _ (one ch h)
  exact fold _ _ ⟨h.latch, h.level, h.mild, h.arms, h.lift⟩

/-- What is calm once the level is formed is so at the end of the event. -/
theorem Calm.finish (run : s.power = .running) (h : Calm arms lift (Machine.formLevel s)) :
    Calm arms lift (finish s) := by
  have round {u : State} (h : Calm arms lift (Machine.formLevel u)) :
      Calm arms lift (Machine.formLevel (Machine.giveTriggers (Machine.formLevel u))) :=
    (h.giveTriggers settled).formLevel settled
  unfold Machine.finish
  rw [if_pos run]
  exact (round (round (round h))).clearMarks

end

/-! ## The release of the cut-off (10 R163) -/

section
variable {s : State}

/-- With the CUTOFF record gone no record of severity 3 is left. -/
theorem releaseLatch_mild (ok : FaultListOk s)
    (only : ∀ r ∈ s.faults.records, r.severity = 3 → r.kind = .cutoff ∧ r.subject = 0 ∧ r.ack = false) :
    Mild (releaseLatch s).faults := by
  have ok := FaultList.faultListOk_iff.1 ok
  have low {r : FaultRec} (mem : r ∈ s.faults.records) (other : ¬(r.kind = .cutoff ∧ r.subject = 0)) : r.severity < 3 :=
    Fin.lt_last_iff_ne_last.2 fun e => other ⟨(only r mem e).1, (only r mem e).2.1⟩
  have full {a : FaultRec} (here : s.faults.aggregate = some a) : a.severity < 3 :=
    low (mem_records.2 (.inr here)) fun is => nomatch (ok.aggregate a here).1.symm.trans is.1
  unfold releaseLatch reportEnded
  dsimp only
  rw [settled_find, settled_mergedHas]
  split
  · next i found =>
    obtain ⟨r, here, kind, subject⟩ := find_some (f := s.faults) found
    refine mild_iff.2 ⟨fun j q e => ?_, fun a e => full e⟩
    rcases FaultList.place_of_set (v := s.faults.places) e with ⟨-, left⟩ | ⟨off, there⟩
    · obtain ⟨x, here', ended⟩ := Option.bind_eq_some_iff.1 left
      have mem : x ∈ s.faults.records := mem_records.2 (.inl ⟨i, here'⟩)
      rw [ended_severity ended]
      refine Fin.lt_last_iff_ne_last.2 fun e => ?_
      obtain ⟨-, -, self⟩ := only x mem e
      unfold FaultRec.ended at ended
      rw [self] at ended
      cases ended
    · exact low (mem_records.2 (.inl ⟨j, there⟩)) fun is =>
        off (ok.unique i j r q here there (kind.trans is.1.symm) (subject.trans is.2.symm))
  · next absent =>
    have places (j : Fin 15) (q : FaultRec) (there : s.faults.places[j] = some q) : q.severity < 3 :=
      low (mem_records.2 (.inl ⟨j, there⟩)) ((find_none_iff (f := s.faults)).1 absent j q there)
    split
    · refine mild_iff.2 ⟨places, fun a e => ?_⟩
      obtain ⟨q, here, rfl⟩ := Option.map_eq_some_iff.1 e
      have below := full here
      exact below
    · exact mild_iff.2 ⟨places, fun a e => full e⟩

/-- Forming the level after the release publishes a level below 3, at which the first two FROZEN arms rejoin. -/
theorem release_calm (three : s.faults.level = 3) (latch : s.faults.latch = false) (mild : Mild s.faults)
    (hold : s.shutdown.hold = false) (empty : s.lift.queue = []) (ranked : Ranked s.arms) :
    ∃ arms, Calm arms { s.lift with queue := (frozenOrder s.arms).take 2 } (formLevel s)
      ∧ (2 ≤ ((frozenOrder s.arms).take 2).length ∨ frozenOrder arms = [])
      ∧ ∀ a, arms.get a = if a ∈ (frozenOrder s.arms).take 2 then rejoinedRec (s.arms.get a) else s.arms.get a := by
  have below := formed_of_mild latch mild
  obtain ⟨same_arms, same_lift⟩ := publish_below s.faults.formed below.ne s
  have faults := publish_faults_below s.faults.formed s below.ne
  obtain ⟨lift, arms⟩ := rejoinFrozen_of_empty
    (s := markFaultChange { s with faults.level := s.faults.formed }) below hold empty ranked
  rw [← same_lift] at lift
  simp only [← same_arms] at arms
  have once : formOnce s = publish s.faults.formed s := if_neg fun e => below.ne (e.trans three)
  have settled : Settled (publish s.faults.formed s) :=
    settled_of_rejoined (s := s) (congrArg Lift.queue lift) arms
  unfold Settled at settled
  rw [lift] at settled
  have calm : Calm (publish s.faults.formed s).arms { s.lift with queue := (frozenOrder s.arms).take 2 }
      (publish s.faults.formed s) :=
    ⟨by rw [faults]; exact latch, by rw [faults]; exact below.ne, by rw [faults]; exact mild.congr rfl rfl, rfl, lift⟩
  refine ⟨_, ?_, settled, arms⟩
  unfold formLevel
  rw [once]
  exact holds_ite calm (calm.publish settled calm.formed)

theorem pedalNeutral_iff : pedalNeutral s = true ↔
    (s.role .pedal).fresh = false ∨ (s.role .pedal).value.natAbs ≤ s.profile.deadband := by simp [pedalNeutral]

/-- CUTOFF_INACTIVE with a neutral pedal releases the latch, and the first two FROZEN arms rejoin. -/
theorem cutoffInactive_calm (run : s.power = .running) (line : s.cutoffLine = true) (latch : s.faults.latch = true)
    (three : s.faults.level = 3) (hold : s.shutdown.hold = false) (empty : s.lift.queue = []) (list : FaultListOk s)
    (pedal : (s.role .pedal).fresh = false ∨ (s.role .pedal).value.natAbs ≤ s.profile.deadband)
    (only : ∀ r ∈ s.faults.records, r.severity = 3 → r.kind = .cutoff ∧ r.subject = 0 ∧ r.ack = false)
    (ranked : Ranked s.arms) :
    ∃ t, exec .cutoffInactive s = .next t
      ∧ Calm t.arms { s.lift with queue := (frozenOrder s.arms).take 2 } t
      ∧ ∀ a, t.arms.get a = if a ∈ (frozenOrder s.arms).take 2 then rejoinedRec (s.arms.get a) else s.arms.get a := by
  let w : State := releaseLatch { s.opened with cutoffLine := false }
  have neutral : pedalNeutral { s.opened with cutoffLine := false } = true := pedalNeutral_iff.2 pedal
  have body : cutoffInactiveBody s.opened = w := by
    unfold cutoffInactiveBody
    dsimp only
    rw [if_pos (show s.opened.faults.latch = true from latch)]
    exact if_pos neutral
  have answers : exec .cutoffInactive s = .next (finish w) := by
    change execCutoffInactive s = _
    unfold execCutoffInactive
    rw [line, if_neg nofun, if_pos run, event_eq, body]
  have ends : Reports
      { s.opened with cutoffLine := false, faults := { s.faults with latch := false, releaseT := none } } w :=
    reportEnded_reports ..
  obtain ⟨released, level⟩ : w.faults.latch = false ∧ w.faults.level = s.faults.level := Prod.mk.inj (reportEnded_alarm
    .cutoff 0 { s.opened with cutoffLine := false, faults := { s.faults with latch := false, releaseT := none } })
  have arms : w.arms = s.arms := ends.arms
  have lift : w.lift = s.lift := ends.lift
  have shutdown : w.shutdown = s.shutdown := ends.ends.shutdown
  have mild : Mild w.faults := releaseLatch_mild (s := { s.opened with cutoffLine := false }) list only
  obtain ⟨arms', calm, settled, rejoined⟩ := release_calm (level.trans three) released mild (shutdown ▸ hold)
    (lift ▸ empty) (arms ▸ ranked)
  rw [arms, lift] at calm
  rw [arms] at settled rejoined
  have done := calm.finish settled (ends.ends.power.trans run)
  refine ⟨finish w, answers, ⟨done.latch, done.level, done.mild, rfl, done.lift⟩, ?_⟩
  rw [done.arms]
  exact rejoined

end

end Sys2Proof.LiftCircuit
end

section
/-! SUPPORT. An arm period read from the state before its time passes, and O38. -/

namespace Sys2Proof.LiftCircuit
open Sys2Proof Sys2Proof.Machine Sys2Proof.Signals

section
variable {s : State} {a : Arm}

theorem atStow_iff : atStow s a = true ↔
    (s.role (.armPosition a)).fresh = true ∧ (s.role (.armPosition a)).value ≤ (s.armCfg a).stow := by simp [atStow]
theorem atWork_iff : atWork s a = true ↔
    (s.role (.armPosition a)).fresh = true ∧ ((s.armCfg a).work : Int) ≤ (s.role (.armPosition a)).value := by
  simp [atWork]
theorem bentOn_iff : bentOn s a = true ↔ (s.role (.armDeflection a)).fresh = true
    ∧ ((s.armCfg a).deflOn : Int) < (s.role (.armDeflection a)).value := by simp [bentOn]
theorem bentOff_iff : bentOff s a = true ↔ (s.role (.armDeflection a)).fresh = true
    ∧ (s.role (.armDeflection a)).value < (s.armCfg a).deflOff := by simp [bentOff]

variable (r : Nat)

theorem openedAt_atStow : atStow (s.openedAt r) a = atStow s a := by
  unfold atStow; rw [openedAt_role, openedAt_armCfg]
theorem openedAt_atWork : atWork (s.openedAt r) a = atWork s a := by
  unfold atWork; rw [openedAt_role, openedAt_armCfg]
theorem openedAt_bentOn : bentOn (s.openedAt r) a = bentOn s a := by
  unfold bentOn; rw [openedAt_role, openedAt_armCfg]
theorem openedAt_bentOff : bentOff (s.openedAt r) a = bentOff s a := by
  unfold bentOff; rw [openedAt_role, openedAt_armCfg]
theorem openedAt_state : ((s.openedAt r).arms.get a).state = (s.arms.get a).state := by rw [openedAt_armRec]
theorem openedAt_rival : rival (s.openedAt r) a = rival s a := by
  unfold rival; rw [openedAt_armCfg, openedAt_state]

/-- Arms in the queue whose desired positions agree with their waits keep their places. -/
theorem not_disagrees_of_agreed (ok : (circuit s).Ok)
    (agreed : ∀ b ∈ s.lift.queue, (after s b).desiredDown = ((s.arms.get b).state == .waitDown)) (b : Arm) :
    ¬Disagrees (made s b) := by
  intro turns
  have waits : (s.arms.get b).state = .waitDown ∨ (s.arms.get b).state = .waitUp :=
    turns.imp (fun h => h.1) fun h => h.1
  have mem : b ∈ s.lift.queue := (ok.queue b).2 (waits.imp seat_waitDown.2 seat_waitUp.2)
  have fit := fitted_of_state (s := s) (a := b) (by rcases waits with e | e <;> rw [e] <;> exact nofun) ok
  have desired : (after s b).desiredDown = (made s b).desiredDown := (armPeriodBody_readied b s fit).2
  have same := desired.symm.trans (agreed b mem)
  rcases turns with ⟨state, up⟩ | ⟨state, down⟩
  · rw [up, show (s.arms.get b).state = .waitDown from state] at same
    exact nomatch same
  · rw [down, show (s.arms.get b).state = .waitUp from state] at same
    exact nomatch same

end

/-- Settles O38: an arm's transition is a function of its record and of whether the queue takes it, and the grant then
finds it waiting or passes it over; at the release the first two arms of the frozen order find a place. -/
theorem armTransitions : Obligations.ArmTransitions := by
  unfold Obligations.ArmTransitions
  constructor
  · intro s r a run timer circuitOk fit
    refine .of (expires_of run timer) ?_
    have ok : (circuit (s.openedAt r)).Ok :=
      KeepsCircuit.of_circuit (advance_circuit s r) (liftCircuitOk_iff.1 circuitOk)
    have cfg := openedAt_armCfg s r a
    have fit' : ((s.openedAt r).armCfg a).fitted = true := cfg.symm ▸ fit
    have state : (made (s.openedAt r) a).state = (s.arms.get a).state := openedAt_state r
    have origin : (made (s.openedAt r) a).origin = (s.arms.get a).origin := by
      show ((s.openedAt r).arms.get a).origin = _; rw [openedAt_armRec]
    have motion : (made (s.openedAt r) a).frozenMotion = (s.arms.get a).frozenMotion := by
      show ((s.openedAt r).arms.get a).frozenMotion = _; rw [openedAt_armRec]
    have desired : (after (s.openedAt r) a).desiredDown = (made (s.openedAt r) a).desiredDown :=
      (armPeriodBody_readied a (s.openedAt r) fit').2
    have grants := @after_grant (s.openedAt r) a
    have frees := @after_free (s.openedAt r)
    rw [openedAt_grantAllowed] at grants frees
    extract_lets c x y at' bent wantsDown below3 before rivals finds shut granted waits joins runsOn leaves stow work
    have down : wantsDown → (made (s.openedAt r) a).desiredDown = true := fun h => desired.symm.trans h
    have up : ¬wantsDown → (made (s.openedAt r) a).desiredDown = false := fun h =>
      desired.symm.trans (Bool.eq_false_iff.2 h)
    have at_stow : stow ↔ atStow (s.openedAt r) a = true := by rw [openedAt_atStow]; exact atStow_iff.symm
    have at_work : work ↔ atWork (s.openedAt r) a = true := by rw [openedAt_atWork]; exact atWork_iff.symm
    have off_stow : ¬stow → atStow (s.openedAt r) a = false := fun h => Bool.eq_false_iff.2 (mt at_stow.2 h)
    have off_work : ¬work → atWork (s.openedAt r) a = false := fun h => Bool.eq_false_iff.2 (mt at_work.2 h)
    have enters : finds → entersIn (s.openedAt r) a = true := by
      rintro ⟨⟨level, hold⟩, room⟩
      have rivals_eq : (earlier a).countP (rival (s.openedAt r)) = rivals := by
        rw [show rival (s.openedAt r) = rival s from funext fun _ => openedAt_rival r]
        cases a <;> rfl
      refine entersIn_of_room ok ?_ ?_ ?_
      · rw [Profiles.openedAt_level]; exact level
      · exact (advance_shutdown_hold r s).trans hold
      · rw [rivals_eq, openedAt_queue]; exact room
    have excludes : shut → entersIn (s.openedAt r) a = false := by
      rintro (high | ⟨full, agreed⟩)
      · refine Bool.eq_false_iff.2 fun may => high ?_
        obtain ⟨-, level, hold⟩ := entersIn_iff.1 may
        rw [Profiles.openedAt_level] at level
        exact ⟨level, (advance_shutdown_hold r s).symm.trans hold⟩
      · refine entersIn_of_full ((congrArg List.length (openedAt_queue s r)).trans full)
          (not_disagrees_of_agreed ok fun b mem => ?_)
        rw [openedAt_state]
        exact agreed b (openedAt_queue s r ▸ mem)
    have joins_of {up o} (h : Joins (s.openedAt r) a ((s.openedAt r).armCfg a).motionLimit up o) : joins up o := by
      rw [cfg] at h; exact h
    have waits_of {up o t} (h : Waits (s.openedAt r) a ((s.openedAt r).armCfg a).motionLimit up o t) :
        waits up o t := by
      rw [cfg] at h; exact h
    have leaves_of {st} (h : Leaves (s.openedAt r) a st) : leaves st := by
      obtain ⟨state, wait, starved, out, ended⟩ := h
      exact ⟨state, wait, starved, out, fun list => ended (openedAt_faultListOk list r)⟩
    have init e := after_of_init ok fit' (state.trans e)
    have lowering e := after_of_lowering ok fit' (state.trans e)
    have lifting e := after_of_lifting ok fit' (state.trans e)
    have working e h := after_of_working ok fit' (state.trans e) h
    have float e h := after_of_float ok fit' (state.trans e) h
    have stowed e := after_of_stowed ok fit' (state.trans e)
    have waitDown e := after_of_waitDown ok fit' (state.trans e)
    have waitUp e := after_of_waitUp ok fit' (state.trans e)
    have frozen e := after_of_frozen ok fit' (state.trans e)
    rw [openedAt_role] at init
    rw [origin] at waitDown waitUp frozen
    rw [motion] at frozen
    rw [openedAt_bentOn, cfg] at working
    rw [openedAt_bentOff] at float
    refine ⟨fun e h => (init e).1 (at_stow.1 h), fun e stale => (init e).2.1 stale, fun e fresh off => ?_,
      fun e h => (lowering e).1 (at_work.1 h), fun e h => (lifting e).1 (at_stow.1 h),
      fun e off => (lowering e).2 (off_work off), fun e off => (lifting e).2 (off_stow off),
      fun e stays => ?_, fun e stays => ?_, fun e h room => ?_, fun e stays => ?_, fun e h room => ?_,
      fun e h => waits_of ((waitDown e).1 (down h)), fun e h => waits_of ((waitUp e).1 (up h)), fun e h o => ?_,
      fun e h o => ?_, fun e h o => ?_, fun e h o => ?_, fun e rest => ?_, fun e room => ?_,
      fun e => after_of_faulted ok fit' (state.trans e), fun holds new => ?_, fun free below engine flow => ?_⟩
    · obtain ⟨-, -, weighed⟩ := init e
      obtain ⟨join, stay⟩ := weighed fresh (off_stow off)
      exact ⟨fun room => joins_of (join (enters room)), fun full => stay (excludes full)⟩
    · obtain ⟨bends, runs⟩ := working e (stays.imp down excludes)
      split
      · next b => exact bends (bentOn_iff.2 b)
      · next b => exact runs (Bool.eq_false_iff.2 (mt bentOn_iff.1 b))
    · obtain ⟨settles, floats⟩ := float e (stays.imp down excludes)
      split
      · next b => exact settles (bentOff_iff.2 b)
      · next b => exact floats (Bool.eq_false_iff.2 (mt bentOff_iff.1 b))
    · exact joins_of (joins_of_turning ok fit' (e.imp state.trans state.trans) (up h) (enters room))
    · exact (stowed e).1 (stays.imp up excludes)
    · exact joins_of ((stowed e).2 (down h) (enters room))
    · obtain ⟨-, leave, -⟩ := waitDown e
      exact leaves_of (leave (up h) (by rw [o]; rfl))
    · obtain ⟨-, leave, turn⟩ := waitDown e
      rw [o] at leave turn
      exact ⟨fun stowed => leaves_of (leave (up h) (at_stow.1 stowed)),
        fun off => waits_of (turn (up h) (off_stow off))⟩
    · obtain ⟨-, leave, -⟩ := waitUp e
      exact leaves_of (leave (down h) (by rw [o]; rfl))
    · obtain ⟨-, leave, turn⟩ := waitUp e
      rw [o] at leave turn
      exact ⟨fun worked => leaves_of (leave (down h) (at_work.1 worked)),
        fun off => waits_of (turn (down h) (off_work off))⟩
    · exact (frozen e).1 (rest.imp id excludes)
    · obtain ⟨rises, lowers⟩ := (frozen e).2 (enters room)
      exact ⟨fun m => joins_of (rises m), fun m => joins_of (lowers m)⟩
    · obtain ⟨level, hold, engine, flow⟩ := grants holds fun e => new ((advance_lift_holder r s).symm.trans e)
      exact ⟨⟨level, hold⟩, engine, flow⟩
    · obtain ⟨level, hold⟩ := below
      exact frees free ⟨level, hold, engine, flow⟩
  · intro s run line latch three hold empty list pedal only
    extract_lets rejoining rank up before
    intro ranked
    obtain ⟨t, answers, calm, rejoined⟩ :=
      cutoffInactive_calm run line latch three hold empty list pedal only ranked
    have queue : t.lift.queue = (frozenOrder s.arms).take 2 := by rw [calm.lift]
    refine ⟨t, answers, calm.level, by rw [calm.lift], ?_, fun a => ⟨fun waits room => ?_, fun out => ?_⟩⟩
    · rw [queue]
      exact (frozenOrder_pairwise ranked).sublist (List.take_sublist ..)
    · have mem := (mem_take_frozenOrder ranked).2 ⟨waits, room⟩
      refine ⟨queue ▸ mem, ?_⟩
      rw [rejoined a, if_pos mem]
      rfl
    · have off : a ∉ (frozenOrder s.arms).take 2 := fun mem => by
        obtain ⟨waits, room⟩ := (mem_take_frozenOrder ranked).1 mem
        rcases out with out | full
        · exact Bool.false_ne_true (out.symm.trans waits)
        · exact absurd room (Nat.not_lt.2 full)
      refine ⟨queue ▸ off, ?_⟩
      rw [rejoined a, if_neg off]

end Sys2Proof.LiftCircuit
end

section
/-! SUPPORT. What an allocator period decides (07 R111 to R117): its inputs, the trim as the greatest factor that fits,
and O42. -/

namespace Sys2Proof.Allocation
open Sys2Proof Sys2Proof.Machine Sys2Proof.Signals

/-! ## The inputs of a period (R111 to R114) -/

/-- The flow left for the brushes (R113). -/
def remaining (s : State) : Nat := availableFlow s - reservation s

section
variable (s : State)

theorem allocatorSpeed_eq : allocatorSpeed s =
    let n := (s.role .engineSpeed).value
    if n < 0 then 0 else if 20000 < n then 20000 else n.toNat := by
  unfold allocatorSpeed clampInt
  dsimp only
  split_ifs <;> rfl

theorem reservation_eq : reservation s = if s.lift.holder = none then 0 else s.tables.arms.liftFlow := by
  unfold reservation
  cases s.lift.holder <;> rfl

theorem turningRpm_eq (a : Arm) : turningRpm s a =
    if (s.arms.get a).state == .working || (s.arms.get a).state == .float then (s.arms.get a).rpm else 0 := by
  rw [← LiftCircuit.turning_eq]
  rfl

variable (r : Nat)

/-! The time that passes to the expiry changes none of them. -/

theorem openedAt_availableFlow : availableFlow (s.openedAt r) = availableFlow s := by
  unfold availableFlow allocatorSpeed
  rw [openedAt_role, openedAt_tables]
theorem openedAt_reservation : reservation (s.openedAt r) = reservation s := by
  have holder : (s.openedAt r).lift.holder = s.lift.holder := advance_lift_holder r s
  unfold reservation
  rw [holder, openedAt_tables]
theorem openedAt_remaining : remaining (s.openedAt r) = remaining s := by
  unfold remaining
  rw [openedAt_availableFlow, openedAt_reservation]
theorem openedAt_turningRpm (a : Arm) : turningRpm (s.openedAt r) a = turningRpm s a := by
  unfold turningRpm
  rw [LiftCircuit.openedAt_armRec]
theorem openedAt_scaledRpm (k : Nat) (a : Arm) : scaledRpm (s.openedAt r) k a = scaledRpm s k a := by
  unfold scaledRpm
  rw [openedAt_turningRpm]
theorem openedAt_rotationDemand : rotationDemand (s.openedAt r) = rotationDemand s := by
  simp only [rotationDemand, openedAt_turningRpm, LiftCircuit.openedAt_armCfg]
theorem openedAt_allotted (k : Nat) : allotted (s.openedAt r) k = allotted s k := by
  simp only [allotted, openedAt_scaledRpm, LiftCircuit.openedAt_armCfg]

end

/-! ## The scale factor and its trim (R115) -/

/-- The factor of the period. -/
def factor (s : State) : Nat := trim s (remaining s) (scaleFactor (remaining s) (rotationDemand s))

section
variable (s : State)

theorem scaledRpm_zero (a : Arm) : scaledRpm s 0 a = 0 := by simp [scaledRpm]
theorem scaledRpm_full (a : Arm) : scaledRpm s 1000 a = turningRpm s a := Nat.mul_div_cancel _ (by decide)

theorem allotted_zero : allotted s 0 = 0 := by simp [allotted, armSum, flowOf, scaledRpm_zero]
theorem allotted_full : allotted s 1000 = rotationDemand s := by simp only [allotted, rotationDemand, scaledRpm_full]

/-- The trim only lowers the factor. -/
theorem trim_le (r k : Nat) : trim s r k ≤ k := by
  induction k with
  | zero => exact Nat.le_refl 0
  | succ k ih =>
    unfold trim
    split
    · exact Nat.le_refl _
    · exact Nat.le_succ_of_le ih

/-- What is allotted under the trimmed factor fits; at the latest nothing is allotted. -/
theorem allotted_trim_le (r k : Nat) : allotted s (trim s r k) ≤ r := by
  induction k with
  | zero => exact (allotted_zero s).trans_le (Nat.zero_le r)
  | succ k ih =>
    unfold trim
    split
    · next fits => exact fits
    · exact ih

/-- Every factor that the trim passes over allots too much. -/
theorem lt_allotted_of_trim_lt (r k : Nat) {j : Nat} (above : trim s r k < j) (below : j ≤ k) : r < allotted s j := by
  induction k with
  | zero => exact absurd (above.trans_le below) (Nat.not_lt_zero _)
  | succ k ih =>
    unfold trim at above
    split at above
    · exact absurd above below.not_gt
    · next exceeds =>
      rcases below.eq_or_lt with rfl | lower
      · exact Nat.lt_of_not_le exceeds
      · exact ih above (Nat.le_of_lt_succ lower)

/-- A factor that fits is not lowered. -/
theorem trim_of_fits {r k : Nat} (fits : allotted s k ≤ r) : trim s r k = k :=
  (trim_le s r k).eq_or_lt.resolve_right fun lowered =>
    fits.not_gt (lt_allotted_of_trim_lt s r k lowered (Nat.le_refl k))

/-- A demand that fits is met in full. -/
theorem factor_of_demand_le (fits : rotationDemand s ≤ remaining s) : factor s = 1000 := by
  unfold factor scaleFactor
  rw [if_pos fits]
  exact trim_of_fits s ((allotted_full s).trans_le fits)

theorem openedAt_trim (t r k : Nat) : trim (s.openedAt t) r k = trim s r k := by
  induction k with
  | zero => rfl
  | succ k ih => unfold trim; rw [openedAt_allotted, ih]

theorem openedAt_factor (r : Nat) : factor (s.openedAt r) = factor s := by
  unfold factor
  rw [openedAt_trim, openedAt_remaining, openedAt_rotationDemand]

end

/-! ## The engine request (R117) -/

section
variable (s : State)

/-- A raise is asked for where the profile allows it and an arm turns or the lift circuit has a holder. -/
theorem engineRequest_eq (q res : Nat) : engineRequest s q res =
    let turns (a : Arm) : Bool := (s.arms.get a).state == .working || (s.arms.get a).state == .float
    if s.profile.raiseAllowed = true
        ∧ (turns .sl = true ∨ turns .sr = true ∨ turns .mb = true ∨ s.lift.holder ≠ none) then
      min (((q + res) * 600 + s.tables.drive.dimp - 1) / s.tables.drive.dimp) s.profile.requestMax
    else 0 := by
  unfold engineRequest divUp
  refine if_congr ?_ rfl rfl
  simp [allArms, LiftCircuit.turning_eq, Option.isSome_iff_ne_none, or_assoc]

theorem openedAt_engineRequest (r q res : Nat) : engineRequest (s.openedAt r) q res = engineRequest s q res := by
  have holder : (s.openedAt r).lift.holder = s.lift.holder := advance_lift_holder r s
  simp only [engineRequest, LiftCircuit.openedAt_state, openedAt_profile, openedAt_tables, holder]

end

/-! ## The period -/

section
variable (s : State)

theorem allocatorBody_arm (a : Arm) :
    (allocatorBody s).arms.get a = { s.arms.get a with scaled := scaledRpm s (factor s) a } := by cases a <;> rfl

theorem allocatorBody_alloc : (allocatorBody s).alloc =
    { fav := availableFlow s, timer := some 20000
      request := engineRequest s (rotationDemand s) (reservation s) } := rfl

theorem allocatorBody_frame : allocatorBody s =
    { s with arms := (allocatorBody s).arms, alloc := (allocatorBody s).alloc, ev := (allocatorBody s).ev } := rfl

end

/-- Settles O42: the period writes the speeds under the trimmed factor, which is the greatest that fits. -/
theorem flowIsAllotted : Obligations.FlowIsAllotted := by
  unfold Obligations.FlowIsAllotted
  intro s r run timer
  extract_lets w n speed fav reserved left turns rpm dm flow demand scaled top need
  have fav_eq : availableFlow s = fav := by unfold availableFlow; rw [allocatorSpeed_eq]; rfl
  have reserved_eq : reservation s = reserved := reservation_eq s
  have left_eq : remaining s = left := by unfold remaining; rw [fav_eq, reserved_eq]
  have rpm_eq : turningRpm s = rpm := funext (turningRpm_eq s)
  have scaled_eq (k : Nat) : scaledRpm s k = scaled k := by funext a; unfold scaledRpm; rw [rpm_eq]
  have flow_eq (k : Nat) : allotted s k = flow (scaled k) := by rw [← scaled_eq]; rfl
  have demand_eq : rotationDemand s = demand := by unfold rotationDemand; rw [rpm_eq]; rfl
  have factor_eq : factor s = trim s left top := by unfold factor; rw [left_eq, demand_eq]; rfl
  have arm (a : Arm) : (allocatorBody w).arms.get a = { w.arms.get a with scaled := scaled (factor s) a } := by
    rw [allocatorBody_arm, openedAt_scaledRpm, openedAt_factor, scaled_eq]
  have fits : flow (scaled (factor s)) ≤ left := by
    rw [← flow_eq, factor_eq]
    exact allotted_trim_le s left top
  refine .of (expires_of run timer) ⟨⟨factor s, ?_, arm, fits, fun j above below => ?_, fun met => ?_⟩, ?_, ?_,
    allocatorBody_frame w⟩
  · rw [factor_eq]
    exact trim_le s left top
  · rw [← flow_eq]
    exact lt_allotted_of_trim_lt s left top (factor_eq ▸ above) below
  · exact factor_of_demand_le s (by rw [demand_eq, left_eq]; exact met)
  · have written : (fun a => ((allocatorBody w).arms.get a).scaled) = scaled (factor s) :=
      funext fun a => by rw [arm]
    exact (congrArg flow written).trans_le fits
  · rw [allocatorBody_alloc, openedAt_availableFlow, openedAt_rotationDemand, openedAt_reservation,
      openedAt_engineRequest, engineRequest_eq, fav_eq, reserved_eq, demand_eq]

end Sys2Proof.Allocation
end

section
/-! SUPPORT. A spray period as a function of the doser record (08 R127 to R135), the end of a linger, and O43. -/

namespace Sys2Proof.Doser
open Sys2Proof Sys2Proof.Machine

/-! ## Footprint of the stages -/

/-- Only doser, supervisor and marks differ, and the published level stands: what the stages of a spray period do. -/
structure Doses (s t : State) : Prop where
  frame : t = { s with spray := t.spray, faults := t.faults, ev := t.ev }
  level : t.faults.level = s.faults.level

namespace Doses

theorem refl (s : State) : Doses s s := ⟨rfl, rfl⟩
theorem trans {s t u : State} (h : Doses s t) (k : Doses t u) : Doses s u :=
  ⟨by rw [k.frame, h.frame], k.level.trans h.level⟩
theorem of_reports {s t : State} (h : Reports s t) (level : t.faults.level = s.faults.level) : Doses s t := by
  unfold Reports at h
  exact ⟨by rw [h], level⟩
theorem begun (k n sev) (s : State) : Doses s (reportBegun k n sev s) :=
  .of_reports (reportBegun_reports ..) (Profiles.reportBegun_level ..)
theorem endedIf (b k n) (s : State) : Doses s (reportEndedIf b k n s) :=
  .of_reports (reportEndedIf_reports ..) (reportEndedIf_level ..)
theorem onSpray (f : Spray → Spray) (s : State) : Doses s (onSpray f s) := ⟨rfl, rfl⟩

theorem role {s t : State} (h : Doses s t) (x : Role) : t.role x = s.role x := by rw [h.frame]; rfl
theorem tables {s t : State} (h : Doses s t) : t.tables = s.tables := by rw [h.frame]
theorem absSpeed {s t : State} (h : Doses s t) : t.absSpeed = s.absSpeed := by rw [h.frame]; rfl

end Doses

/-! ## The tank checks (R128, R129) -/

/-- The doser record after the low check. -/
def lowChecked (t : Reading) (p : Spray) : Spray :=
  if t.fresh then
    if p.lowArmed then if t.value < 150 then { p with lowArmed := false, tankLow := true } else p
    else if 250 < t.value then { p with lowArmed := true, tankLow := false } else p
  else p

/-- The doser record after DRY is judged. -/
def dryChecked (t : Reading) (p : Spray) : Spray :=
  { p with dry := (dryAfter t p).1, firstPending := (dryAfter t p).2, sprayDry := (dryAfter t p).1 }

/-- The state after both checks of a period. -/
def checked (s : State) : State :=
  dryCheck (lowCheck (onSpray (fun p => { p with timer := msTimer Config.sprayPeriodMs }) s))

/-- The doser record after both checks of a period. -/
def checkedRec (s : State) : Spray :=
  dryChecked (s.role .tankLevel) (lowChecked (s.role .tankLevel) { s.spray with timer := some 50000 })

section
variable (s : State)

theorem lowCheck_doses : Doses s (lowCheck s) := by
  unfold lowCheck
  dsimp only
  split_ifs
  · exact (Doses.onSpray _ s).trans (.begun ..)
  · exact .refl s
  · exact (Doses.onSpray _ s).trans (.endedIf ..)
  · exact .refl s
  · exact .refl s
theorem lowCheck_spray : (lowCheck s).spray = lowChecked (s.role .tankLevel) s.spray := by
  unfold lowCheck lowChecked Config.tankLowLevel Config.tankRefillLevel
  dsimp only
  split_ifs
  · exact (reportBegun_reports ..).spray
  · rfl
  · exact reportEndedIf_spray ..
  · rfl
  · rfl

theorem dryCheck_doses : Doses s (dryCheck s) := by
  unfold dryCheck
  dsimp only
  split
  · exact (Doses.onSpray _ s).trans (.begun ..)
  · exact (Doses.onSpray _ s).trans (.endedIf ..)
theorem dryCheck_spray : (dryCheck s).spray = dryChecked (s.role .tankLevel) s.spray := by
  unfold dryCheck
  dsimp only
  split
  · exact (reportBegun_reports ..).spray
  · exact reportEndedIf_spray ..
/-- DRY that SPRAY_DRY did not yet follow is reported. -/
theorem dryCheck_holds (dry : (dryAfter (s.role .tankLevel) s.spray).1 = true) (was : s.spray.sprayDry = false) :
    (dryCheck s).faults.holds .sprayDry 0 = true := by
  unfold dryCheck
  dsimp only
  rw [dry, was]
  exact reportBegun_holds ..

theorem checked_doses : Doses s (checked s) :=
  (Doses.onSpray _ s).trans <| (lowCheck_doses _).trans (dryCheck_doses _)
theorem checked_spray : (checked s).spray = checkedRec s := by
  unfold checked
  rw [dryCheck_spray, (lowCheck_doses _).role, lowCheck_spray]
  rfl

end

/-- The low check writes its arming and its report only. -/
theorem lowChecked_frame (t : Reading) (p : Spray) :
    lowChecked t p = { p with lowArmed := (lowChecked t p).lowArmed, tankLow := (lowChecked t p).tankLow } := by
  unfold lowChecked
  split_ifs <;> rfl

/-- DRY is judged on what the low check leaves. -/
theorem dryAfter_lowChecked (t : Reading) (p : Spray) : dryAfter t (lowChecked t p) = dryAfter t p := by
  rw [lowChecked_frame]
  rfl

section
variable {t : Reading} {p : Spray}

theorem lowChecked_lowArmed : (lowChecked t p).lowArmed =
    if t.fresh = false then p.lowArmed
    else if p.lowArmed = true then decide (150 ≤ t.value) else decide (250 < t.value) := by
  unfold lowChecked
  cases t.fresh
  · rfl
  · cases armed : p.lowArmed
    · by_cases above : 250 < t.value <;> simp [above, armed]
    · by_cases below : t.value < 150
      · simp [below]
      · simp [below, armed, not_lt.1 below]
theorem lowChecked_begins (fresh : t.fresh = true) (armed : p.lowArmed = true) (below : t.value < 150) :
    (lowChecked t p).tankLow = true := by simp [lowChecked, fresh, armed, below]
theorem lowChecked_ends (fresh : t.fresh = true) (armed : p.lowArmed = false) (above : 250 < t.value) :
    (lowChecked t p).tankLow = false := by simp [lowChecked, fresh, armed, above]

theorem dryAfter_first (first : p.firstPending = true) :
    dryAfter t p = if t.fresh = true then (decide (t.value < 30), false) else (true, true) := if_pos first
theorem dryAfter_dry (first : p.firstPending = false) (dry : p.dry = true) :
    dryAfter t p = (!(t.fresh && decide (250 < t.value)), false) := by
  unfold dryAfter
  rw [first, dry]
  rfl
theorem dryAfter_wet (first : p.firstPending = false) (wet : p.dry = false) :
    dryAfter t p = (!t.fresh || decide (t.value < 30), false) := by
  unfold dryAfter
  rw [first, wet]
  rfl

end

/-! ## The speed condition and its linger (R130) -/

section
variable {cfg : SprayConfig} {v : Nat} {p : Spray}

/-- The speed condition writes its own three fields only. -/
theorem speedCondition_frame : (speedCondition cfg v p).2 =
    { p with above := (speedCondition cfg v p).2.above, linger := (speedCondition cfg v p).2.linger
             belowMs := (speedCondition cfg v p).2.belowMs } := by
  unfold speedCondition endLinger
  dsimp only
  split_ifs <;> rfl

theorem speedCondition_atSpeed (h : cfg.minSpeed ≤ v) :
    speedCondition cfg v p = (true, { p with above := true, linger := false, belowMs := 0 }) := if_pos h
theorem speedCondition_falls (h : v < cfg.minSpeed) (above : p.above = true) :
    speedCondition cfg v p =
      (decide (0 < cfg.linger), { p with above := false, linger := decide (0 < cfg.linger), belowMs := 0 }) := by
  unfold speedCondition
  rw [if_neg h.not_ge, if_pos above]
theorem speedCondition_lingers (h : v < cfg.minSpeed) (above : p.above = false) (linger : p.linger = true) :
    speedCondition cfg v p = (decide (p.belowMs + 50 < cfg.linger),
      { p with linger := decide (p.belowMs + 50 < cfg.linger), belowMs := p.belowMs + 50 }) := by
  unfold speedCondition Config.sprayPeriodMs endLinger
  dsimp only
  rw [if_neg h.not_ge, above, if_neg Bool.false_ne_true, if_pos linger]
  split_ifs with within <;> simp [within, linger]
theorem speedCondition_rests (h : v < cfg.minSpeed) (above : p.above = false) (linger : p.linger = false) :
    speedCondition cfg v p = (false, p) := by
  unfold speedCondition
  rw [if_neg h.not_ge, above, linger]
  rfl

/-- Below the minimum the condition holds while the speed lingers. -/
theorem speedCondition_below (h : v < cfg.minSpeed) :
    (speedCondition cfg v p).1 = (speedCondition cfg v p).2.linger ∧ (speedCondition cfg v p).2.above = false := by
  cases above : p.above
  · cases linger : p.linger
    · rw [speedCondition_rests h above linger]; exact ⟨linger.symm, above⟩
    · rw [speedCondition_lingers h above linger]; exact ⟨rfl, above⟩
  · rw [speedCondition_falls h above]; exact ⟨rfl, rfl⟩

theorem speedCondition_holds :
    (speedCondition cfg v p).1 = true ↔ cfg.minSpeed ≤ v ∨ (speedCondition cfg v p).2.linger = true := by
  rcases le_or_gt cfg.minSpeed v with h | h
  · simp [speedCondition_atSpeed h, h]
  · simp [(speedCondition_below h).1, h.not_ge]

end

/-! ## Banks (R131, R133) -/

theorem bankOpens_iff {s : State} {speed : Bool} {a : Arm} : bankOpens s speed a = true ↔
    ((s.arms.get a).state = .working ∨ (s.arms.get a).state = .float) ∧ s.faults.level ≤ 1
    ∧ (s.role .spraySwitch).fresh = true ∧ (s.role .spraySwitch).value ≠ 0 ∧ s.spray.dry = false
    ∧ 0 < (s.armParams a).dose ∧ speed = true := by
  simp [bankOpens, LiftCircuit.turning_eq, and_assoc]

theorem bankAfter_isOpen (s : State) (speed : Bool) (a : Arm) : (bankAfter s speed a).isOpen = bankOpens s speed a := by
  unfold bankAfter
  cases bankOpens s speed a <;> rfl
theorem bankAfter_flow (s : State) (speed : Bool) (a : Arm) : (bankAfter s speed a).flow =
    if (bankAfter s speed a).isOpen then (s.armParams a).dose * s.absSpeed / 1000 else 0 := by
  rw [bankAfter_isOpen]
  unfold bankAfter
  cases bankOpens s speed a <;> rfl

theorem bankOpens_withSpray (s : State) (p : Spray) (speed : Bool) (a : Arm) :
    bankOpens { s with spray := p } speed a =
      ((s.arms.get a).state.turning && decide (s.faults.level ≤ 1) && (s.role .spraySwitch).fresh
        && (s.role .spraySwitch).value != 0 && !p.dry && decide (0 < (s.armParams a).dose) && speed) := rfl
theorem bankAfter_withSpray (s : State) (p : Spray) (speed : Bool) (a : Arm) :
    bankAfter { s with spray := p } speed a = if bankOpens { s with spray := p } speed a then
      ⟨true, (s.armParams a).dose * s.absSpeed / 1000⟩ else ⟨false, 0⟩ := rfl

/-- What a bank goes by beside the doser record. -/
theorem bankAfter_congr {s t : State} {p : Spray} {speed : Bool}
    (state : ∀ a, (t.arms.get a).state = (s.arms.get a).state) (level : t.faults.level = s.faults.level)
    (switch : t.role .spraySwitch = s.role .spraySwitch) (params : ∀ a, t.armParams a = s.armParams a)
    (abs : t.absSpeed = s.absSpeed) :
    bankAfter { t with spray := p } speed = bankAfter { s with spray := p } speed := by
  funext a
  rw [bankAfter_withSpray, bankOpens_withSpray, state, level, switch, params, abs]
  rfl

theorem anyOpen_iff {b : PerArm Bank} : anyOpen b = true ↔ ∃ a, (b.get a).isOpen = true := by
  constructor
  · intro h
    simp only [anyOpen, Bool.or_eq_true, or_assoc] at h
    rcases h with h | h | h
    exacts [⟨.sl, h⟩, ⟨.sr, h⟩, ⟨.mb, h⟩]
  · rintro ⟨a, h⟩
    cases a <;> simp_all [anyOpen, PerArm.get]

/-! ## The period -/

/-- The speed condition of a period, with the doser record after it. -/
def conditioned (s : State) : Bool × Spray := speedCondition s.tables.spray s.absSpeed (checkedRec s)

/-- The doser record that a period leaves. -/
def sprayed (s : State) : Spray := (doseStage (conditioned s).1 { s with spray := (conditioned s).2 }).spray

section
variable (s : State)

theorem sprayBody_eq : sprayBody s =
    { doseStage (speedCondition (checked s).tables.spray (checked s).absSpeed (checked s).spray).1
        { checked s with spray := (speedCondition (checked s).tables.spray (checked s).absSpeed (checked s).spray).2 }
      with ev.period := some .spray } := rfl

/-- The reports of the tank checks change nothing of what a bank goes by. -/
theorem bankAfter_of_doses {s t : State} (h : Doses s t) (p : Spray) (speed : Bool) :
    bankAfter { t with spray := p } speed = bankAfter { s with spray := p } speed := by
  have same : t.arms = s.arms ∧ t.armParams = s.armParams := by rw [h.frame]; exact ⟨rfl, rfl⟩
  exact bankAfter_congr (fun a => by rw [same.1]) h.level (h.role _) (fun a => by rw [same.2]) h.absSpeed

theorem doseStage_of_doses {s t : State} (h : Doses s t) (p : Spray) (speed : Bool) :
    (doseStage speed { t with spray := p }).spray = (doseStage speed { s with spray := p }).spray := by
  unfold doseStage
  dsimp only
  rw [bankAfter_of_doses h, h.tables]
  rfl

/-- A spray period is the tank checks, the speed condition and the dose on the doser record. -/
theorem sprayBody_spray : (sprayBody s).spray = sprayed s := by
  have reports := checked_doses s
  rw [sprayBody_eq, reports.tables, reports.absSpeed, checked_spray]
  exact doseStage_of_doses reports _ _

theorem sprayBody_frame : sprayBody s =
    { s with spray := (sprayBody s).spray, faults := (sprayBody s).faults, ev := (sprayBody s).ev } := by
  have frame := (checked_doses s).frame
  rw [sprayBody_eq]
  generalize checked s = t at frame
  rw [frame]
  rfl

/-- DRY that SPRAY_DRY did not yet follow is reported at the period. -/
theorem sprayBody_holds (dry : (checkedRec s).dry = true) (was : s.spray.sprayDry = false) :
    (sprayBody s).faults.holds .sprayDry 0 = true := by
  let low := lowCheck (onSpray (fun p => { p with timer := msTimer Config.sprayPeriodMs }) s)
  have spray : low.spray = lowChecked (s.role .tankLevel) { s.spray with timer := some 50000 } := lowCheck_spray _
  have role : low.role .tankLevel = s.role .tankLevel := (lowCheck_doses _).role _
  rw [sprayBody_eq]
  refine dryCheck_holds low ?_ ?_
  · rw [role, spray]; exact dry
  · rw [spray, lowChecked_frame]; exact was

end

/-! ## What a period leaves, field by field -/

section
variable (s : State)

/-- DRY is judged on the record that the period finds. -/
theorem checkedRec_dry : (checkedRec s).dry = (dryAfter (s.role .tankLevel) s.spray).1 :=
  congrArg Prod.fst (dryAfter_lowChecked ..)
theorem checkedRec_firstPending : (checkedRec s).firstPending = (dryAfter (s.role .tankLevel) s.spray).2 :=
  congrArg Prod.snd (dryAfter_lowChecked ..)
/-- The tank checks leave what the speed condition and the volume go by. -/
theorem checkedRec_frame : checkedRec s = { s.spray with
    lowArmed := (checkedRec s).lowArmed, tankLow := (checkedRec s).tankLow, dry := (checkedRec s).dry
    firstPending := (checkedRec s).firstPending, sprayDry := (checkedRec s).dry, timer := some 50000 } := by
  unfold checkedRec dryChecked
  rw [lowChecked_frame]

/-- The dose writes the banks and what follows from them. -/
theorem sprayed_frame : sprayed s = { checkedRec s with
    above := (conditioned s).2.above, linger := (conditioned s).2.linger, belowMs := (conditioned s).2.belowMs
    banks := (sprayed s).banks, q := (sprayed s).q, duty := (sprayed s).duty, volume := (sprayed s).volume } := by
  have dosed : sprayed s = { (conditioned s).2 with
    banks := (sprayed s).banks, q := (sprayed s).q, duty := (sprayed s).duty, volume := (sprayed s).volume } := rfl
  have frame : (conditioned s).2 = _ := speedCondition_frame
  rw [frame] at dosed
  exact dosed

theorem sprayed_volume : (sprayed s).volume = volumeAfter (sprayed s).q s.spray.volume := by
  have frame : (conditioned s).2 = _ := speedCondition_frame
  have volume : (conditioned s).2.volume = s.spray.volume := by rw [frame, checkedRec_frame]
  rw [← volume]
  rfl
theorem sprayed_q : (sprayed s).q = totalFlow (sprayed s).banks := rfl
theorem sprayed_duty : (sprayed s).duty = pumpDuty s.tables.spray (anyOpen (sprayed s).banks) (sprayed s).q := rfl
theorem sprayed_bank (a : Arm) :
    (sprayed s).banks.get a = bankAfter { s with spray := (conditioned s).2 } (conditioned s).1 a := by
  cases a <;> rfl

/-- The fields of the tank checks are those the checks leave. -/
theorem sprayed_checks : (sprayed s).lowArmed = (checkedRec s).lowArmed ∧ (sprayed s).tankLow = (checkedRec s).tankLow
    ∧ (sprayed s).dry = (checkedRec s).dry ∧ (sprayed s).firstPending = (checkedRec s).firstPending
    ∧ (sprayed s).sprayDry = (sprayed s).dry ∧ (sprayed s).timer = some 50000 := by
  rw [sprayed_frame, checkedRec_frame]
  exact ⟨rfl, rfl, rfl, rfl, rfl, rfl⟩

variable {s}

/-- The fields of the speed condition are those its judgement leaves. -/
theorem sprayed_atSpeed (h : s.tables.spray.minSpeed ≤ s.absSpeed) :
    (sprayed s).linger = false ∧ (sprayed s).belowMs = 0 ∧ (sprayed s).above = true := by
  rw [sprayed_frame, conditioned, speedCondition_atSpeed h]
  exact ⟨rfl, rfl, rfl⟩
theorem sprayed_falls (h : s.absSpeed < s.tables.spray.minSpeed) (above : s.spray.above = true) :
    (sprayed s).belowMs = 0 ∧ ((sprayed s).linger = true ↔ 0 < s.tables.spray.linger) := by
  have above : (checkedRec s).above = true := by rw [checkedRec_frame]; exact above
  rw [sprayed_frame, conditioned, speedCondition_falls h above]
  exact ⟨rfl, decide_eq_true_iff⟩
theorem sprayed_lingers (h : s.absSpeed < s.tables.spray.minSpeed) (above : s.spray.above = false)
    (linger : s.spray.linger = true) : (sprayed s).belowMs = s.spray.belowMs + 50
      ∧ ((sprayed s).linger = true ↔ s.spray.belowMs + 50 < s.tables.spray.linger) := by
  have above : (checkedRec s).above = false := by rw [checkedRec_frame]; exact above
  have linger : (checkedRec s).linger = true := by rw [checkedRec_frame]; exact linger
  have below : (checkedRec s).belowMs = s.spray.belowMs := by rw [checkedRec_frame]
  rw [sprayed_frame, conditioned, speedCondition_lingers h above linger, below]
  exact ⟨rfl, decide_eq_true_iff⟩
theorem sprayed_rests (h : s.absSpeed < s.tables.spray.minSpeed) (above : s.spray.above = false)
    (linger : s.spray.linger = false) : (sprayed s).linger = false := by
  have above : (checkedRec s).above = false := by rw [checkedRec_frame]; exact above
  have linger : (checkedRec s).linger = false := by rw [checkedRec_frame]; exact linger
  rw [sprayed_frame, conditioned, speedCondition_rests h above linger]
  exact linger
theorem sprayed_below (h : s.absSpeed < s.tables.spray.minSpeed) : (sprayed s).above = false := by
  rw [sprayed_frame]
  exact (speedCondition_below h).2

theorem sprayed_isOpen {a : Arm} : ((sprayed s).banks.get a).isOpen = true ↔
    ((s.arms.get a).state = .working ∨ (s.arms.get a).state = .float) ∧ s.faults.level ≤ 1
    ∧ (s.role .spraySwitch).fresh = true ∧ (s.role .spraySwitch).value ≠ 0 ∧ (sprayed s).dry = false
    ∧ 0 < (s.armParams a).dose ∧ (s.tables.spray.minSpeed ≤ s.absSpeed ∨ (sprayed s).linger = true) := by
  have holds : (conditioned s).1 = true ↔ _ := speedCondition_holds
  have linger : (sprayed s).linger = (conditioned s).2.linger := by rw [sprayed_frame]
  rw [sprayed_bank, bankAfter_isOpen, bankOpens_iff, holds, linger]
  exact Iff.rfl
theorem sprayed_flow {a : Arm} : ((sprayed s).banks.get a).flow =
    if ((sprayed s).banks.get a).isOpen then (s.armParams a).dose * s.absSpeed / 1000 else 0 := by
  rw [sprayed_bank]
  exact bankAfter_flow ..

end

/-! ## The time that passes to the expiry -/

section
variable (r : Nat) (s : State)

/-- Time changes nothing of the doser but its timer, which the period starts anew. -/
theorem openedAt_checkedRec : checkedRec (s.openedAt r) = checkedRec s := by
  have doser : { (s.openedAt r).spray with timer := some 50000 } = { s.spray with timer := some 50000 } := by
    cases r <;> rfl
  unfold checkedRec
  rw [openedAt_role, doser]
theorem openedAt_sprayDry : (s.openedAt r).spray.sprayDry = s.spray.sprayDry := by cases r <;> rfl
theorem openedAt_conditioned : conditioned (s.openedAt r) = conditioned s := by
  unfold conditioned
  rw [openedAt_tables, openedAt_absSpeed, openedAt_checkedRec]
theorem openedAt_bankAfter (p : Spray) (speed : Bool) :
    bankAfter { s.openedAt r with spray := p } speed = bankAfter { s with spray := p } speed :=
  bankAfter_congr (fun _ => LiftCircuit.openedAt_state r) (Profiles.openedAt_level r s) (openedAt_role r s _)
    (fun a => LiftCircuit.openedAt_commands s r a) (openedAt_absSpeed r s)
theorem openedAt_sprayed : sprayed (s.openedAt r) = sprayed s := by
  unfold sprayed doseStage
  dsimp only
  rw [openedAt_conditioned, openedAt_bankAfter, openedAt_tables]
  rfl

end

/-- Settles O43: a period leaves the doser record `sprayed`, which is the tank checks, the speed condition and the dose one
after another, and time changes none of their inputs. -/
theorem sprayIsDosed : Obligations.SprayIsDosed := by
  unfold Obligations.SprayIsDosed
  refine ⟨fun s r run timer => ?_, fun s => ⟨fun run linger out => ?_, fun still => ?_⟩⟩
  · extract_lets w p cfg tank speed switch
    have spray : (sprayBody w).spray = sprayed s := (sprayBody_spray w).trans (openedAt_sprayed r s)
    obtain ⟨lowArmed, tankLow, dry, first, sprayDry, timer'⟩ := sprayed_checks s
    have reports (on : (sprayed s).dry = true) : p.sprayDry = false → (sprayBody w).faults.holds .sprayDry 0 = true :=
      fun off => sprayBody_holds w ((congrArg Spray.dry (openedAt_checkedRec r s)).trans (dry ▸ on))
        ((openedAt_sprayDry r s).trans off)
    have dry := dry.trans (checkedRec_dry s)
    have first := first.trans (checkedRec_firstPending s)
    refine .of (expires_of run timer) ?_
    extract_lets x holds q someOpen
    have x_eq : x = sprayed s := spray
    clear_value x
    subst x_eq
    refine ⟨?_, fun fresh armed below => ?_, fun fresh armed above => ?_, fun pending => ?_, fun judged => ?_, sprayDry,
      reports, sprayed_atSpeed, fun h => ⟨sprayed_below h, sprayed_falls h, sprayed_lingers h, sprayed_rests h⟩,
      fun a => ?_, sprayed_q s, fun none => ?_, fun some => ?_, sprayed_volume s, timer', sprayBody_frame w⟩
    · rw [lowArmed]; exact lowChecked_lowArmed
    · rw [tankLow]; exact lowChecked_begins fresh armed below
    · rw [tankLow]; exact lowChecked_ends fresh armed above
    · rw [dry, first, dryAfter_first pending]
      by_cases fresh : (s.role .tankLevel).fresh = true <;> simp [tank, fresh]
    · rw [dry, first]
      refine ⟨?_, fun wet => ?_, fun was => ?_⟩
      · cases was : s.spray.dry
        · rw [dryAfter_wet judged was]
        · rw [dryAfter_dry judged was]
      · rw [dryAfter_wet judged wet]
      · rw [dryAfter_dry judged was]
    · exact ⟨sprayed_isOpen, sprayed_flow⟩
    · exact (sprayed_duty s).trans (if_neg (mt anyOpen_iff.1 none))
    · exact (sprayed_duty s).trans (if_pos (anyOpen_iff.2 some))
  · exact .of (happens_of run (by simp [linger, out])) rfl
  · refine happens_not (still.imp_right fun off => ?_)
    rcases off with off | early
    · rw [off]; rfl
    · simp [early.not_ge]

end Sys2Proof.Doser
end

section
/-! SUPPORT. The volume accumulator (08 R135): the operations that leave it, which are all but a spray period, a cold start
and CLEAR_VOLUME. -/

namespace Sys2Proof.Doser
open Sys2Proof Sys2Proof.Machine Sys2Proof.Signals Sys2Proof.SpeedCapture

/-! ## Footprints that leave the volume -/

/-- The volume accumulator. -/
def volume (s : State) : Nat := s.spray.volume

theorem volume_ite {c : Prop} [Decidable c] {s t u : State} (h : volume t = volume s) (k : volume u = volume s) :
    volume (if c then t else u) = volume s := Travel.field_ite h k
theorem volume_foldl {α : Type} {f : State → α → State} (h : ∀ s a, volume (f s a) = volume s) (l : List α)
    (s : State) : volume (l.foldl f s) = volume s := foldl_field volume f h l s
theorem volume_of_reports {s t : State} (h : Reports s t) : volume t = volume s := congrArg Spray.volume h.spray
theorem volume_of_sends {s t : State} (h : Sends s t) : volume t = volume s := congrArg Spray.volume h.spray
theorem volume_of_feeds {s t : State} (h : Feeds s t) : volume t = volume s := by unfold Feeds at h; rw [h]; rfl
theorem volume_of_captures {s t : State} (h : Captures s t) : volume t = volume s := by unfold Captures at h; rw [h]; rfl
theorem volume_of_sequences {s t : State} (h : LiftCircuit.Sequences s t) : volume t = volume s :=
  congrArg Spray.volume h.spray

section
variable (s : State)

/-! ## Reports, the level, the end of an event (10, 09) -/

theorem reportBegun_volume (k n sev) : volume (reportBegun k n sev s) = volume s :=
  volume_of_reports (reportBegun_reports ..)
theorem reportEnded_volume (k n) : volume (reportEnded k n s) = volume s := volume_of_reports (reportEnded_reports ..)
theorem enterHeld_volume : volume (enterHeld s) = volume s := congrArg Spray.volume (enterHeld_spray s)
theorem volume_formLevel : volume (formLevel s) = volume s := formLevel_volume s
theorem volume_closeBanks (c) : volume (closeBanks c s) = volume s := closeBanks_volume c s
theorem banksFollowArms_volume : volume (banksFollowArms s) = volume s := volume_closeBanks s _
theorem clearMarks_volume : volume { s with ev := .none } = volume s := rfl
theorem acknowledge_volume : volume (acknowledge s) = volume s := volume_of_feeds (acknowledge_acks s).feeds
theorem weighAck_volume : volume (weighAck s) = volume s := volume_of_feeds (weighAck_acks s).feeds

theorem completeAll_volume : volume (completeAll s) = volume s :=
  (volume_foldl (fun s ch => (volume_formLevel _).trans (volume_of_sends (completeIfDone_sends ch s))) _ _).trans
    (volume_formLevel s)
theorem giveTriggers_volume : volume (giveTriggers s) = volume s :=
  volume_foldl (fun s ch => (volume_formLevel _).trans (volume_of_sends (giveTrigger_sends ch s))) _ _
theorem finish_volume : volume (finish s) = volume s := by
  have round (u : State) : volume (giveTriggers (formLevel u)) = volume u :=
    (giveTriggers_volume _).trans (volume_formLevel u)
  have rounds := (round _).trans <| (round _).trans (round s)
  exact volume_ite ((clearMarks_volume _).trans <| (volume_formLevel _).trans rounds) (clearMarks_volume s)

/-! ## Signals and the frame path (02, 01) -/

theorem recompute_volume (n) : volume (recompute n s) = volume s := volume_of_feeds (recompute_votes n s).feeds
theorem freshnessExpired_volume (n) : volume (freshnessExpired n s) = volume s :=
  (weighAck_volume _).trans (reportBegun_volume _ _ _ _)
theorem senderExpired_volume (i) : volume (senderExpired i s) = volume s := by
  unfold senderExpired
  dsimp only
  split
  · rfl
  · exact (weighAck_volume _).trans (recompute_volume _ _)
theorem removePlace_volume (i) : volume (removePlace i s) = volume s := by
  unfold removePlace
  split
  · rfl
  · exact (recompute_volume _ _).trans (reportEnded_volume _ _ _)
theorem removeSenders_volume (p r) : volume (removeSenders p r s) = volume s :=
  volume_ite rfl ((volume_foldl (fun s n => recompute_volume s n) _ _).trans (reportEnded_volume _ _ _))
theorem presentSender_volume (q f e n) : volume (presentSender q f e n s).2 = volume s := by
  unfold presentSender
  split
  · split
    · rfl
    · exact removePlace_volume s _
  · split
    · rfl
    · exact reportBegun_volume _ _ _ _
theorem applyDirect_volume (e d) : volume (applyDirect e d s) = volume s := by
  have pick (u : State) (p) : volume (applyDirectPick d u p) = volume u := by
    unfold applyDirectPick
    split
    · rfl
    · refine volume_ite ?_ rfl
      split
      · rfl
      · exact volume_of_feeds (tokenSlot_votes _ _ u).feeds
  have refresh (u : State) (p) : volume (refreshByPick d u p) = volume u :=
    volume_ite (volume_of_feeds (refreshSlot_votes _ u).feeds) rfl
  exact (weighAck_volume _).trans <| (volume_foldl refresh _ _).trans (volume_foldl pick _ s)
theorem applySender_volume (i e d) : volume (applySender i e d s) = volume s := by
  have token (u : State) (p) : volume (applySenderToken i d u p) = volume u := by
    unfold applySenderToken; split <;> rfl
  unfold applySender
  split
  · rfl
  · split
    · rfl
    · exact (recompute_volume _ _).trans (volume_foldl token _ _)
theorem forward_volume (q f) : volume (forward q f s) = volume s :=
  volume_ite rfl (volume_ite (reportBegun_volume _ _ _ _) (reportEnded_volume _ _ _))
theorem forwardAction_volume (e q f) : volume (forwardAction e q f s) = volume s := by
  unfold forwardAction
  split
  case h_1 | h_2 => exact forward_volume _ _ _
  case h_5 => split <;> exact forward_volume _ _ _
  all_goals rfl
theorem carryOut_volume (i q f) : volume (carryOut i q f s) = volume s := by
  unfold carryOut
  dsimp only
  split
  · exact (forwardAction_volume _ _ _ _).trans (applyDirect_volume _ _ _)
  · split
    · exact forwardAction_volume _ _ _ _
    · next v _ =>
      have presented := presentSender_volume s q f i v.slot
      split
      · next heq => rw [heq] at presented; exact presented
      · next heq =>
        rw [heq] at presented
        exact (forwardAction_volume _ _ _ _).trans <| (weighAck_volume _).trans <|
          (applySender_volume _ _ _ _).trans presented
theorem framePath_volume (q f) : volume (framePath q f s) = volume s := by
  unfold framePath
  split
  · exact carryOut_volume _ _ _ _
  · exact volume_ite (forward_volume _ _ _) rfl

/-! ## Replies and freed places (11, 01) -/

theorem countReply_volume : volume (countReply s) = volume s := by unfold countReply; split <;> rfl
theorem offerReply_volume : volume (offerReply s) = volume s := by
  have held : volume (holdReply s) = volume s := by unfold holdReply; split <;> rfl
  have placed : volume (placeReply s) = volume s := by unfold placeReply; split <;> rfl
  exact volume_ite rfl (volume_ite (countReply_volume s) (volume_ite held placed))
theorem offerReplies_volume : volume (offerReplies s) = volume s :=
  volume_ite (offerReply_volume s) ((offerReply_volume _).trans (offerReply_volume s))
theorem makeReply_volume (r) : volume (makeReply r s) = volume s := volume_ite rfl (offerReply_volume _)
theorem answer_volume (c t st d) : volume (answer c t st d s) = volume s := makeReply_volume _ _
theorem deferredReply_volume (st) : volume (deferredReply st s) = volume s := by
  unfold deferredReply
  split
  · rfl
  · exact makeReply_volume _ _
theorem leaves_volume (q r) : volume (restartReplyLeft q r (recordLeft s r)) = volume s := by
  have left : volume (recordLeft s r) = volume s := by unfold recordLeft; split <;> rfl
  unfold restartReplyLeft
  exact volume_ite left left
theorem handPlace_volume (q) : volume (handPlace q s) = volume s := by
  refine volume_ite ?_ rfl
  split
  · rfl
  · dsimp only
    split
    · exact (volume_of_sends (continueSend_sends _ _)).trans (volume_of_sends (placeChannelFrame_sends _ _ _ _))
    · exact offerReplies_volume _
theorem releaseHolder_volume (h) : volume (releaseHolder s h) = volume s := by
  unfold releaseHolder
  split
  · exact volume_of_sends (continueSend_sends _ _)
  · exact (countReply_volume _).trans (countReply_volume _)
theorem frameSentBody_volume (q r) : volume (frameSentBody q r s) = volume s :=
  (completeAll_volume _).trans <| (handPlace_volume _ q).trans (leaves_volume _ q r)
theorem linkLostBody_volume (q) : volume (linkLostBody q s) = volume s :=
  (completeAll_volume _).trans <|
    (volume_foldl (fun s h => (volume_formLevel _).trans (releaseHolder_volume s h)) _ _).trans <|
    (volume_formLevel _).trans <| (reportBegun_volume _ _ _ _).trans (volume_foldl (fun s r => leaves_volume s q r) _ _)

/-! ## Speed capture (03) -/

theorem captureUpdate_volume : volume (captureUpdate s) = volume s := volume_of_captures (captureUpdate_captures s)
theorem edge_volume (ch d c) : volume (edge ch d c s) = volume s := by
  unfold edge
  dsimp only
  split
  · rfl
  · split
    · rfl
    · exact captureUpdate_volume _
theorem resetCapture_volume : volume (resetCapture s) = volume s :=
  (captureUpdate_volume _).trans <| (reportEnded_volume _ _ _).trans <| (reportEnded_volume _ _ _).trans <|
    reportEnded_volume _ _ _

/-! ## Arms (06) -/

theorem motionExpired_volume (a) : volume (motionExpired a s) = volume s := by
  unfold motionExpired
  dsimp only
  rw [volume_of_sequences (LiftCircuit.weighGrant_sequences _), banksFollowArms_volume,
    volume_of_reports (reportOnce_reports _ _ _ _)]
  rfl
theorem actOnFitted_volume (o) : volume (actOnFitted o s) = volume s := by
  refine (banksFollowArms_volume _).trans (volume_foldl (fun s a => ?_) _ _)
  split
  · exact (reportEnded_volume _ _ _).trans <| (reportEnded_volume _ _ _).trans (reportEnded_volume _ _ _)
  all_goals rfl
theorem startShutdown_volume : volume (startShutdown s) = volume s := by
  have freeze (l) (u : State) (a) : volume (shutdownFreezeArm l u a) = volume u :=
    volume_ite ((reportEnded_volume _ _ _).trans (reportEnded_volume _ _ _)) rfl
  exact (volume_closeBanks _ _).trans <| (volume_foldl (freeze _) _ _).trans (enterHeld_volume _)

/-! ## Cut-off, restarts, power (10, 12) -/

theorem weighRelease_volume : volume (weighRelease s) = volume s := volume_ite (reportEnded_volume _ _ _) rfl
/-- A restart gives the accumulator the value it finds (08 R125). -/
theorem restartBlocks_volume : volume (restartBlocks s) = volume s := by
  have ended (u : State) : volume (endUnobserved u) = volume u := volume_foldl (fun s _ => reportEnded_volume s _ _) _ u
  have store (u : State) : volume (judgeStore u) = volume u := volume_ite (reportBegun_volume _ _ _ _) rfl
  have cutoff (u : State) : volume (judgeCutoff u) = volume u := volume_ite (reportBegun_volume _ _ _ _) rfl
  have ignition (u : State) : volume (judgeIgnition u) = volume u := volume_ite rfl (startShutdown_volume u)
  have unlocked (u : State) : volume { u with gov.lock := false, ev.armChange := false } = volume u := rfl
  exact (ignition _).trans <| (unlocked _).trans <| (volume_formLevel _).trans <| (ended _).trans <| (store _).trans <|
    (cutoff _).trans (captureUpdate_volume _)
theorem coldStart_volume : volume (coldStart s) = 0 := restartBlocks_volume _
theorem warmRestart_volume (c) : volume (warmRestart c s) = volume s := restartBlocks_volume _
theorem failedStep_volume (p) : volume (failedStep p s) = volume s := by
  unfold failedStep
  split
  · rfl
  · unfold failedPage volume
    rfl
theorem losePower_volume : volume (losePower s) = volume s := by
  unfold losePower
  dsimp only
  split
  · exact failedStep_volume s _
  · rfl
  · rfl

/-! ## The table store and the service unit (12, 11) -/

theorem storeDone_volume (r) : volume (storeDone r s) = volume s :=
  (deferredReply_volume _ _).trans (reportEnded_volume _ _ _)
theorem storeStep_volume (b r) : volume (storeStep b r s) = volume s :=
  volume_ite (volume_ite (storeDone_volume s r) rfl) ((deferredReply_volume _ _).trans (failedStep_volume s _))
theorem replaceTables_volume (t) : volume (replaceTables t s) = volume s := by
  have slot (u : State) (n) : volume (recallSlot u n) = volume u := by
    unfold recallSlot
    rw [reportEnded_volume, reportEnded_volume]
    rfl
  have slots (u : State) : volume (recallSlots u) = volume u := volume_foldl slot _ u
  have channels (u : State) : volume (recallChannels u) = volume u := rfl
  unfold replaceTables
  dsimp only
  rw [weighAck_volume, resetCapture_volume, actOnFitted_volume, channels, slots, removeSenders_volume]
  rfl
theorem recallDone_volume (sum) : volume (recallDone sum s) = volume s := by
  unfold recallDone
  dsimp only
  split
  · exact (deferredReply_volume _ _).trans (replaceTables_volume _ _)
  · exact deferredReply_volume _ _
theorem startRecall_volume : volume (startRecall s) = volume s := by
  unfold startRecall
  split
  · exact deferredReply_volume _ _
  · exact volume_ite (recallDone_volume s _) rfl
theorem readDone_volume (r) : volume (readDone r s) = volume s := volume_ite rfl (recallDone_volume s _)

theorem commitWith_volume {α : Type} (n index len : Nat) (decode : List Byte → Option α)
    (accept : Fin n → α → State → Judged) (h : ∀ i x, volume (accept i x s).2 = volume s) :
    volume (commitWith n index len decode accept s).2 = volume s := by
  rcases commitWith_cases n index len decode accept s with e | ⟨i, x, -, e⟩
  · rw [e]
  · rw [e]; exact h i x
theorem acceptMatch_volume (i e) : volume (acceptMatch i e s).2 = volume s := by
  unfold acceptMatch
  split
  · exact (weighAck_volume _).trans (removeSenders_volume _ _ _)
  · rfl
theorem acceptSlot_volume (i c) : volume (acceptSlot i c s).2 = volume s := by
  unfold acceptSlot
  split
  · exact (weighAck_volume _).trans <| (reportEnded_volume _ _ _).trans <| (reportEnded_volume _ _ _).trans <|
      removeSenders_volume _ _ _
  · rfl
theorem commitItem_volume (code index) : volume (commitItem code index s).2 = volume s := by
  unfold commitItem
  split
  case h_1 => exact commitWith_volume s _ _ _ _ _ (acceptMatch_volume s)
  case h_2 => exact commitWith_volume s _ _ _ _ _ (acceptSlot_volume s)
  case h_3 => exact commitWith_volume s _ _ _ _ _ fun _ _ => weighAck_volume _
  case h_6 => exact commitWith_volume s _ _ _ _ _ fun _ _ => actOnFitted_volume _ _
  case h_7 | h_8 =>
    refine commitWith_volume s _ _ _ _ _ fun i x => ?_
    dsimp only
    split <;> rfl
  case h_10 => exact commitWith_volume s _ _ _ _ _ fun _ _ => resetCapture_volume _
  case h_4 | h_5 | h_9 | h_11 | h_12 => exact commitWith_volume s _ _ _ _ _ fun _ _ => rfl
  all_goals rfl

theorem openConfig_volume : volume (openConfig s).2 = volume s := by
  unfold openConfig
  split_ifs
  case neg => exact enterHeld_volume _
  all_goals rfl
theorem readItem_volume (c i k) : volume (readItem c i k s).2.2 = volume s := by
  unfold readItem readKind
  split
  · split
    · split
      · rfl
      · split
        · split <;> rfl
        · rfl
    · rfl
  · rfl
theorem channelControl_volume (c a) : volume (channelControl c a s).2 = volume s := by
  unfold channelControl
  split
  case h_3 => exact volume_of_sends (giveTrigger_sends _ _)
  all_goals rfl
theorem restartRequest_volume (c t) : volume (restartRequest c t s) = volume s :=
  volume_ite (makeReply_volume _ _) (answer_volume _ _ _ _ _)
theorem dropSenders_volume (slot) : volume (dropSenders slot s).2 = volume s := by
  have dropped (p r) : volume (weighAck (removeSenders p r s)) = volume s :=
    (weighAck_volume _).trans (removeSenders_volume s p r)
  unfold dropSenders
  split
  · exact dropped _ _
  · split
    · exact dropped _ _
    · rfl

end
end Sys2Proof.Doser
end

section
/-! SUPPORT. The volume accumulator (08 R135, R136) under requests and under every command: O44. -/

namespace Sys2Proof.Doser
open Sys2Proof Sys2Proof.Machine

/-! ## Requests -/

section
variable (s : State)

theorem answerJudged_volume (c t) {j : Judged} (h : volume j.2 = volume s) : volume (answerJudged c t j) = volume s :=
  (answer_volume _ _ _ _ _).trans h

/-- A request with another code than CLEAR_VOLUME leaves the accumulator. -/
theorem carryOutRequest_volume {code : Byte} (t d) (h : code.toNat ≠ 0x0C) :
    volume (carryOutRequest code t d s) = volume s := by
  unfold carryOutRequest
  split
  · exact answerJudged_volume s _ _ (openConfig_volume s)
  · exact answer_volume _ _ _ _ _
  · exact (answer_volume _ _ _ _ _).trans (readItem_volume s _ _ _)
  · refine answerJudged_volume s _ _ ?_
    unfold stageItem
    split <;> rfl
  · exact answerJudged_volume s _ _ (commitItem_volume s _ _)
  · exact volume_ite (deferredReply_volume _ _) rfl
  · exact startRecall_volume _
  · split <;> exact answer_volume _ _ _ _ _
  · exact (answer_volume _ _ _ _ _).trans (acknowledge_volume s)
  · exact answerJudged_volume s _ _ (channelControl_volume s _ _)
  · exact restartRequest_volume s _ _
  · next clear => exact absurd clear h
  · exact answerJudged_volume s _ _ (dropSenders_volume s _)
  · rfl

/-- CLEAR_VOLUME sets the accumulator to 0 (R136). -/
theorem carryOutRequest_clears (t d) : volume (carryOutRequest 0x0C t d s) = 0 :=
  answer_volume (clearedVolume s) _ _ _ _

/-- A request leaves the accumulator, or it is CLEAR_VOLUME and sets it to 0. -/
theorem serviceRequest_volume (d : List Byte) : volume (serviceRequest d s) = volume s
    ∨ d.head? = some 0x0C ∧ volume (serviceRequest d s) = 0 := by
  have restarted : volume (restartInactivity s) = volume s := volume_ite rfl rfl
  unfold serviceRequest
  split
  · exact .inl rfl
  · next code rest =>
    dsimp only
    split_ifs
    · exact .inl restarted
    · split
      · exact .inl ((answer_volume _ _ _ _ _).trans restarted)
      · by_cases clear : code = 0x0C
        · subst clear
          exact .inr ⟨rfl, carryOutRequest_clears _ _ _⟩
        · exact .inl ((carryOutRequest_volume _ _ _ fun e => clear (BitVec.eq_of_toNat_eq e)).trans restarted)

end

/-! ## Answers -/

theorem happens_next {c : Bool} {body : State → State} {s t : State} (h : happens c body s = .next t) :
    t = s ∨ t = finish (body s.opened) := by
  unfold happens at h
  split at h <;> cases h
  · exact .inr rfl
  · exact .inl rfl

theorem expires_next {timer : Timer} {body : State → State} {s t : State} (h : expires timer body s = .next t) :
    t = s ∨ ∃ r, t = finish (body (s.openedAt r)) := by
  unfold expires at h
  split at h
  · split at h <;> cases h
    · exact .inr ⟨_, rfl⟩
    · exact .inl rfl
  · cases h
    exact .inl rfl

/-- An answer whose next state has the volume as it was. -/
def VolumeStands (s : State) (a : Answer) : Prop := ∀ t, a = .next t → volume t = volume s

namespace VolumeStands

theorem next {s t : State} (h : volume t = volume s) : VolumeStands s (.next t) := by rintro _ ⟨⟩; exact h
theorem stay (s : State) : VolumeStands s (.next s) := next rfl
theorem ite {s : State} {a b : Answer} {c : Prop} [Decidable c] (h : VolumeStands s a) (k : VolumeStands s b) :
    VolumeStands s (if c then a else b) := by
  split
  · exact h
  · exact k

section
variable {body : State → State} (h : ∀ s, volume (body s) = volume s) (s : State)
include h

theorem of_event : volume (event body s) = volume s := (finish_volume _).trans (h s.opened)
theorem of_happens (c) : VolumeStands s (happens c body s) := by
  intro t e
  rcases happens_next e with rfl | rfl
  · rfl
  · exact of_event h s
theorem of_expires (timer) : VolumeStands s (expires timer body s) := by
  intro t e
  rcases expires_next e with rfl | ⟨r, rfl⟩
  · rfl
  · exact (of_event h _).trans (advance_spray_volume r s)

end
end VolumeStands

section
variable (s : State)

/-! ## Commands beside requests, spray period and cold start -/

theorem restartIfDue_volume : volume (restartIfDue s) = volume s :=
  volume_ite (VolumeStands.of_event (fun u => warmRestart_volume u .service) s) rfl
theorem sleepIfDue_volume : volume (sleepIfDue s) = volume s := by
  have slept : volume (event sleepBody s) = volume s := VolumeStands.of_event (body := sleepBody) (fun _ => rfl) s
  have woken (u : State) : volume (wakeNow u) = volume u := VolumeStands.of_event (fun u => warmRestart_volume u .wake) u
  exact volume_ite (volume_ite ((woken _).trans slept) slept) rfl
theorem operationEvent_volume {body : State → State} (h : ∀ s, volume (body s) = volume s) (timer) :
    VolumeStands s (operationEvent timer body s) := by
  refine .ite ?_ (.stay s)
  split
  · exact .next ((sleepIfDue_volume _).trans ((VolumeStands.of_event h _).trans (advance_spray_volume _ s)))
  · exact .stay s

theorem execFrameSent_volume (q) : VolumeStands s (execFrameSent q s) := by
  refine .ite ?_ (.stay s)
  split
  · exact .next ((restartIfDue_volume _).trans (VolumeStands.of_event (fun u => frameSentBody_volume u q _) s))
  · exact .stay s
theorem execLinkLost_volume (q) : VolumeStands s (execLinkLost q s) :=
  .ite (.next ((restartIfDue_volume _).trans (VolumeStands.of_event (fun u => linkLostBody_volume u q) s))) (.stay s)
theorem execWaitingHolderPlaced_volume (q) : VolumeStands s (execWaitingHolderPlaced q s) :=
  .of_happens (body := fun s => completeAll ((handPlace q s).onPort q PortUnit.offerLink))
    (fun u => (completeAll_volume _).trans (handPlace_volume u q)) s _
theorem execPulseEdge_volume (ch d k) : VolumeStands s (execPulseEdge ch d k s) := by
  have late (u : State) : volume (event (standstillExpired ch) u) = volume u :=
    VolumeStands.of_event (body := standstillExpired ch) (fun _ => captureUpdate_volume _) u
  have taken (u : State) : volume (event (edge ch d k) u) = volume u :=
    VolumeStands.of_event (fun u => edge_volume u ch d k) u
  exact .ite (.ite (.next ((taken _).trans ((volume_ite (late _) rfl).trans (advance_spray_volume _ s))))
    (.next (advance_spray_volume _ s))) (.stay s)
theorem execShutdownTimerExpiry_volume : VolumeStands s (execShutdownTimerExpiry s) := by
  refine .ite ?_ (.stay s)
  split
  · exact .next ((sleepIfDue_volume _).trans
      ((VolumeStands.of_event (body := shutdownExpired) (fun _ => rfl) _).trans (advance_spray_volume _ s)))
  · exact .stay s
theorem execIgnitionShutdown_volume : VolumeStands s (execIgnitionShutdown s) :=
  .ite (.ite (.next (VolumeStands.of_event startShutdown_volume { s with ignLine := false })) (.next rfl)) (.stay s)
theorem execCutoffActive_volume : VolumeStands s (execCutoffActive s) := by
  have set (u : State) : volume (cutoffActiveBody u) = volume u := volume_ite rfl (reportBegun_volume _ _ _ _)
  exact .ite (.stay s) (.ite (.next (VolumeStands.of_event set s)) (.next rfl))
theorem execCutoffInactive_volume : VolumeStands s (execCutoffInactive s) := by
  have cleared (u : State) : volume (cutoffInactiveBody u) = volume u := volume_ite (weighRelease_volume _) rfl
  exact .ite (.stay s) (.ite (.next (VolumeStands.of_event cleared s)) (.next rfl))
theorem execWake_volume : VolumeStands s (execWake s) :=
  .ite (.next (VolumeStands.of_event (fun u => warmRestart_volume u .wake) { s with ignLine := true })) (.next rfl)
theorem execStorePageStep_volume (b) : VolumeStands s (execStorePageStep b s) := by
  unfold execStorePageStep
  split
  · exact operationEvent_volume s (fun u => storeStep_volume u b _) _
  · exact .stay s
theorem execStoreCompletion_volume : VolumeStands s (execStoreCompletion s) := by
  unfold execStoreCompletion
  split
  · exact .ite (operationEvent_volume s (fun u => storeDone_volume u _) _) (.stay s)
  · exact .stay s
theorem execRecallPageRead_volume : VolumeStands s (execRecallPageRead s) := by
  unfold execRecallPageRead
  split
  · exact operationEvent_volume s (fun u => readDone_volume u _) _
  · exact .stay s
theorem execRecallCompletion_volume : VolumeStands s (execRecallCompletion s) := by
  unfold execRecallCompletion
  split
  · exact .ite (.stay s) (operationEvent_volume s (fun u => readDone_volume u _) _)
  · exact .stay s
theorem governorBody_volume : volume (governorBody s) = volume s := by rw [Profiles.governorBody_frame s]; rfl

/-- A request command with another code than CLEAR_VOLUME. -/
theorem request_volume {code : Byte} {rest : List Byte} (other : code ≠ 0x0C) :
    VolumeStands s (request (code :: rest) s) := by
  intro t e
  rcases happens_next e with rfl | rfl
  · rfl
  · rcases serviceRequest_volume s.opened (code :: rest) with same | ⟨clear, -⟩
    · exact (finish_volume _).trans same
    · exact absurd (Option.some.inj clear) other

end

/-! ## Every command -/

/-- The commands that set the accumulator to 0: a cold start (R135) and CLEAR_VOLUME, as a command or as a frame (R136). -/
def Clears (c : Instr) (s : State) : Prop :=
  c = .coldStart ∨ (∃ tag, c = .clearVolume tag)
    ∨ ∃ f : Frame, c = .frameReceived .c f ∧ isRequest s .c f = true ∧ f.data.head? = some 0x0C

/-- What a command makes of the accumulator: it stands, grows by a period's flow, or is cleared. -/
def VolumeRule (c : Instr) (s t : State) : Prop :=
  volume t = volume s ∨ (∃ q, volume t = volumeAfter q (volume s)) ∨ volume t = 0 ∧ Clears c s

section
variable {s t : State}

theorem VolumeRule.of_stands {c : Instr} {a : Answer} (h : VolumeStands s a) (e : a = .next t) : VolumeRule c s t :=
  .inl (h t e)

theorem frameReceived_volumeRule {q : Port} {f : Frame} (e : exec (.frameReceived q f) s = .next t) :
    VolumeRule (.frameReceived q f) s t := by
  change (if f.wf then happens (s.ports.get q).on (receive q f) s else .fault .notAFrame) = .next t at e
  split at e
  · rcases happens_next e with rfl | rfl
    · exact .inl rfl
    · by_cases req : isRequest s q f = true
      · have received : receive q f s.opened = serviceRequest f.data s.opened := if_pos req
        have onC : q = .c := by
          simp only [isRequest, Bool.and_eq_true, beq_iff_eq] at req
          obtain ⟨⟨port, -⟩, -⟩ := req
          exact port
        subst onC
        rcases serviceRequest_volume s.opened f.data with same | ⟨clear, zero⟩
        · exact .inl ((finish_volume _).trans (received ▸ same))
        · exact .inr (.inr ⟨(finish_volume _).trans (received ▸ zero), .inr (.inr ⟨f, rfl, req, clear⟩)⟩)
      · have received : receive q f s.opened = framePath q f s.opened := if_neg req
        exact .inl ((finish_volume _).trans (received ▸ framePath_volume _ q f))
  · cases e

theorem clearVolume_volumeRule {tag : Byte} (e : exec (.clearVolume tag) s = .next t) :
    VolumeRule (.clearVolume tag) s t := by
  rcases happens_next e with rfl | rfl
  · exact .inl rfl
  · rcases serviceRequest_volume s.opened [0x0C, tag] with same | ⟨-, zero⟩
    · exact .inl ((finish_volume _).trans same)
    · exact .inr (.inr ⟨(finish_volume _).trans zero, .inr (.inl ⟨tag, rfl⟩)⟩)

/-- A period adds its total flow (R135). -/
theorem sprayPeriod_volumeRule (e : exec .sprayPeriod s = .next t) : VolumeRule .sprayPeriod s t := by
  rcases expires_next e with rfl | ⟨r, rfl⟩
  · exact .inl rfl
  · have opened : volume (s.openedAt r) = volume s := advance_spray_volume r s
    refine .inr (.inl ⟨(sprayed (s.openedAt r)).q, (finish_volume _).trans ?_⟩)
    rw [← opened]
    exact (congrArg Spray.volume (sprayBody_spray _)).trans (sprayed_volume _)

theorem coldStart_volumeRule (e : exec .coldStart s = .next t) : VolumeRule .coldStart s t := by
  cases e
  exact .inr (.inr ⟨(finish_volume _).trans (coldStart_volume _), .inl rfl⟩)

theorem unknownRequest_volume {code : Byte} {tag : Option Byte} (wf : (Instr.unknownRequest code tag).wf = true) :
    VolumeStands s (exec (.unknownRequest code tag) s) := by
  refine request_volume s ?_
  rintro rfl
  cases wf

end

/-- Every well-formed command obeys the rule of the accumulator. -/
theorem exec_volumeRule {c : Instr} {s t : State} (wf : c.wf = true) (e : exec c s = .next t) : VolumeRule c s t := by
  cases c
  case frameReceived q f => exact frameReceived_volumeRule e
  case clearVolume tag => exact clearVolume_volumeRule e
  case sprayPeriod => exact sprayPeriod_volumeRule e
  case coldStart => exact coldStart_volumeRule e
  all_goals refine .of_stands ?_ e
  case frameSent q => exact execFrameSent_volume s q
  case waitingHolderPlaced q => exact execWaitingHolderPlaced_volume s q
  case linkLost q => exact execLinkLost_volume s q
  case linkRestored q => exact .of_happens (body := linkRestoredBody q) (fun _ => reportEnded_volume _ _ _) s _
  case pulseEdge ch d k => exact execPulseEdge_volume s ch d k
  case windowTimerExpiry ch => exact .of_expires (body := windowExpired ch) (fun _ => captureUpdate_volume _) s _
  case standstillTimerExpiry ch => exact .of_expires (body := standstillExpired ch) (fun _ => captureUpdate_volume _) s _
  case disagreementTimerExpiry => exact .of_expires (body := disagreementExpired) (fun _ => reportBegun_volume _ _ _ _) s _
  case lossTimerExpiry ch =>
    exact .of_expires (body := lossExpired ch)
      (fun _ => (captureUpdate_volume _).trans (reportBegun_volume _ _ _ _)) s _
  case returnTimerExpiry ch =>
    exact .of_expires (body := returnExpired ch)
      (fun _ => (captureUpdate_volume _).trans (reportEnded_volume _ _ _)) s _
  case freshnessTimerExpiry n => exact .of_expires (fun u => freshnessExpired_volume u n) s _
  case senderTimerExpiry p => exact .of_expires (fun u => senderExpired_volume u p) s _
  case silentTimeEnd p => exact .of_expires (fun u => (weighAck_volume _).trans (removePlace_volume u p)) s _
  case governorPeriod => exact .of_expires governorBody_volume s _
  case overspeedTimeLimit => exact .of_happens (body := overspeedBegins) (fun _ => reportBegun_volume _ _ _ _) s _
  case armPeriod => exact .of_expires LiftCircuit.armPeriodBody_volume s _
  case motionTimerExpiry a => exact .of_expires (fun u => motionExpired_volume u a) s _
  case floatTimerExpiry a => exact .of_expires (body := floatExpired a) (fun _ => reportBegun_volume _ _ _ _) s _
  case waitTimerExpiry a => exact .of_expires (body := waitExpired a) (fun _ => reportBegun_volume _ _ _ _) s _
  case allocatorPeriod => exact .of_expires (body := allocatorBody) (fun _ => rfl) s _
  case lingerEnd => exact .of_happens (body := onSpray endLinger) (fun _ => rfl) s _
  case intervalTimerExpiry ch =>
    exact .of_expires (body := intervalExpired ch) (fun _ => volume_of_sends (giveTrigger_sends _ _)) s _
  case sendCompletion ch => exact .of_happens (fun u => volume_of_sends (completeIfDone_sends ch u)) s _
  case cutoffActive => exact execCutoffActive_volume s
  case cutoffInactive => exact execCutoffInactive_volume s
  case releaseTimerExpiry => exact .of_expires weighRelease_volume s _
  case detectionTimeExpiry k n => exact .of_expires (fun u => reportEnded_volume u k n) s _
  case ignitionShutdown => exact execIgnitionShutdown_volume s
  case shutdownTimerExpiry => exact execShutdownTimerExpiry_volume s
  case sleepEntry => exact .next (sleepIfDue_volume s)
  case wake => exact execWake_volume s
  case serviceRestart => exact .next (restartIfDue_volume s)
  case inactivityTimerExpiry => exact .of_expires (body := closeSession) (fun _ => rfl) s _
  case storePageStep b => exact execStorePageStep_volume s b
  case storeCompletion => exact execStoreCompletion_volume s
  case recallPageRead => exact execRecallPageRead_volume s
  case recallCompletion => exact execRecallCompletion_volume s
  case powerLoss => exact .ite (.stay s) (.next (losePower_volume s))
  case unknownRequest code tag => exact unknownRequest_volume wf
  all_goals exact request_volume s (by decide)

/-- Settles O44: an accumulator that stands or grows by a period's flow up to its bound is not lower. -/
theorem volumeNeverDecreases : Obligations.VolumeNeverDecreases := by
  unfold Obligations.VolumeNeverDecreases
  intro c s t wf bound e
  have bound : volume s < 2 ^ 48 := bound
  show volume t < 2 ^ 48 ∧ (volume t < volume s → volume t = 0 ∧ Clears c s)
  rcases exec_volumeRule wf e with same | ⟨q, grown⟩ | ⟨zero, clears⟩
  · rw [same]
    exact ⟨bound, fun lower => absurd lower (lt_irrefl _)⟩
  · unfold volumeAfter Config.volumeMax at grown
    exact ⟨by omega, fun lower => by omega⟩
  · exact ⟨by rw [zero]; decide, fun _ => ⟨zero, clears⟩⟩

end Sys2Proof.Doser
end

section
/-! SUPPORT. The field of a number (01 R15), the bytes of a number, the frame built from a template (09 R141), and O47. -/

namespace Sys2Proof.Channels
open Sys2Proof Sys2Proof.Machine

/-! ## Fields of a number -/

section
variable (pos w n v : Nat)

/-- A number with a field replaced, taken apart at the field's ends. -/
theorem putField_eq : putField pos w n v = n % 2 ^ pos + 2 ^ pos * (v % 2 ^ w + 2 ^ w * (n / 2 ^ pos / 2 ^ w)) := by
  unfold putField field
  have low : n % 2 ^ pos + 2 ^ pos * (n / 2 ^ pos) = n := Nat.mod_add_div n _
  have high : n / 2 ^ pos % 2 ^ w + 2 ^ w * (n / 2 ^ pos / 2 ^ w) = n / 2 ^ pos := Nat.mod_add_div _ _
  have rest : n - n / 2 ^ pos % 2 ^ w * 2 ^ pos = n % 2 ^ pos + 2 ^ pos * (2 ^ w * (n / 2 ^ pos / 2 ^ w)) := by
    refine Nat.sub_eq_of_eq_add ?_
    calc n = n % 2 ^ pos + 2 ^ pos * (n / 2 ^ pos % 2 ^ w + 2 ^ w * (n / 2 ^ pos / 2 ^ w)) := by rw [high, low]
      _ = _ := by ring
  rw [rest]
  ring

theorem putField_mod_below : putField pos w n v % 2 ^ pos = n % 2 ^ pos := by
  rw [putField_eq, Nat.add_mul_mod_self_left, Nat.mod_mod]

theorem putField_div_below : putField pos w n v / 2 ^ pos = v % 2 ^ w + 2 ^ w * (n / 2 ^ pos / 2 ^ w) := by
  rw [putField_eq, Nat.add_mul_div_left _ _ (Nat.two_pow_pos pos),
    Nat.div_eq_of_lt (Nat.mod_lt _ (Nat.two_pow_pos pos)), Nat.zero_add]

/-- The field replaced reads what was written, as far as its width holds it. -/
theorem field_putField : field pos w (putField pos w n v) = v % 2 ^ w := by
  unfold field
  rw [putField_div_below, Nat.add_mul_mod_self_left, Nat.mod_mod]

theorem putField_div_above : putField pos w n v / 2 ^ (pos + w) = n / 2 ^ (pos + w) := by
  rw [pow_add, ← Nat.div_div_eq_div_mul, ← Nat.div_div_eq_div_mul, putField_div_below,
    Nat.add_mul_div_left _ _ (Nat.two_pow_pos w), Nat.div_eq_of_lt (Nat.mod_lt _ (Nat.two_pow_pos w)), Nat.zero_add]

variable {pos w n} in
/-- A field within the data leaves the data as long as it was. -/
theorem putField_lt {k : Nat} (bound : n < 2 ^ k) (fits : pos + w ≤ k) : putField pos w n v < 2 ^ k := by
  obtain ⟨d, rfl⟩ := Nat.exists_eq_add_of_le fits
  rw [pow_add 2 (pos + w), Nat.mul_comm, ← Nat.div_lt_iff_lt_mul (Nat.two_pow_pos _)] at bound ⊢
  rwa [putField_div_above]

end

/-! ## Bytes of a number -/

theorem leBytes_length (k n : Nat) : (leBytes k n).length = k := by
  induction k generalizing n with
  | zero => rfl
  | succ k ih => exact congrArg Nat.succ (ih _)

theorem leNat_leBytes (k n : Nat) : leNat (leBytes k n) = n % 2 ^ (8 * k) := by
  induction k generalizing n with
  | zero => exact (Nat.mod_one n).symm
  | succ k ih =>
    show (BitVec.ofNat 8 n).toNat + 256 * leNat (leBytes k (n / 256)) = n % 2 ^ (8 * (k + 1))
    rw [ih, BitVec.toNat_ofNat, Nat.mul_succ, Nat.add_comm (8 * k), pow_add, Nat.mod_mul]
    rfl

theorem leNat_lt (bs : List Byte) : leNat bs < 2 ^ (8 * bs.length) := by
  induction bs with
  | nil => exact Nat.one_pos
  | cons b bs ih =>
    have byte : b.toNat < 256 := b.isLt
    show b.toNat + 256 * leNat bs < 2 ^ (8 * (bs.length + 1))
    rw [Nat.mul_succ, pow_add]
    omega

/-! ## Saturated values -/

theorem saturate_eq (signed : Bool) (w : Nat) (x : Int) : saturate signed w x =
    if x < fieldMin signed w then fieldMin signed w else if fieldMax signed w < x then fieldMax signed w else x := rfl

/-- A saturated value lies within its field. -/
theorem saturate_mem (signed : Bool) {w : Nat} (wide : 1 ≤ w) (x : Int) :
    -((2 ^ w : Nat) : Int) ≤ saturate signed w x ∧ saturate signed w x < ((2 ^ w : Nat) : Int) := by
  obtain ⟨v, rfl⟩ := Nat.exists_eq_add_of_le' wide
  have half : 2 ^ (v + 1) = 2 * 2 ^ v := by rw [pow_succ, Nat.mul_comm]
  have pos : 0 < 2 ^ v := Nat.two_pow_pos v
  rw [saturate_eq]
  unfold fieldMin fieldMax
  rw [Nat.add_sub_cancel, half]
  cases signed <;> simp only [Bool.false_eq_true, if_true, if_false] <;> split_ifs <;> omega

/-- The two's-complement number of a value of the field's width. -/
theorem twosComplement_nonneg {w : Nat} {y : Int} (h : 0 ≤ y) (lt : y < ((2 ^ w : Nat) : Int)) :
    ((twosComplement w y : Nat) : Int) = y := by
  unfold twosComplement
  rw [Int.emod_eq_of_lt h lt, Int.toNat_of_nonneg h]

theorem twosComplement_neg {w : Nat} {y : Int} (h : y < 0) (ge : -((2 ^ w : Nat) : Int) ≤ y) :
    ((twosComplement w y : Nat) : Int) = y + (2 ^ w : Nat) := by
  unfold twosComplement
  rw [← Int.add_emod_right, Int.emod_eq_of_lt (by omega) (by omega), Int.toNat_of_nonneg (by omega)]

theorem twosComplement_lt (w : Nat) (y : Int) : twosComplement w y < 2 ^ w := by
  have pos : (0 : Int) < ((2 ^ w : Nat) : Int) := by exact_mod_cast Nat.two_pow_pos w
  exact (Int.toNat_lt (Int.emod_nonneg _ pos.ne')).2 (Int.emod_lt_of_pos _ pos)

/-! ## A frame built from one place -/

section
variable {s : State} {t : Template} {p : Place} (one : t.places = [p]) (fits : p.bitPos + p.width ≤ 8 * t.len)
  (short : t.len ≤ 8)
include one fits short

/-- The data of a frame with one place are the template's constant with that place filled. -/
theorem buildFrame_data :
    leNat (buildFrame s t).data = fillPlace s (leNat (t.bytes.toList.take t.len)) p := by
  have length : (t.bytes.toList.take t.len).length = t.len := by simpa using short
  have constant : leNat (t.bytes.toList.take t.len) < 2 ^ (8 * t.len) := by
    simpa only [length] using leNat_lt (t.bytes.toList.take t.len)
  unfold buildFrame
  rw [one, leNat_leBytes]
  exact Nat.mod_eq_of_lt (putField_lt _ constant fits)

/-- The place reads back what was formed for it. -/
theorem buildFrame_field : field p.bitPos p.width (leNat (buildFrame s t).data) = twosComplement p.width
    (saturate p.signed p.width (scale (sourceValue s p.source) p.mul p.div p.off)) := by
  rw [buildFrame_data one fits short]
  exact (field_putField _ _ _ _).trans (Nat.mod_eq_of_lt (twosComplement_lt _ _))

end

/-- Settles O47: the place is a field put into the constant, and what that field reads back is the saturated value, or
that value and 2^width. -/
theorem frameIsBuilt : Obligations.FrameIsBuilt := by
  unfold Obligations.FrameIsBuilt
  intro s t p one wide fits short
  obtain ⟨ge, lt⟩ := saturate_mem p.signed wide (scale (sourceValue s p.source) p.mul p.div p.off)
  have data := buildFrame_data (s := s) one fits short
  have read := congrArg (Nat.cast (R := Int)) (buildFrame_field (s := s) one fits short)
  exact ⟨rfl, rfl, leBytes_length _ _, fun nonneg => read.trans (twosComplement_nonneg nonneg lt),
    fun neg => read.trans (twosComplement_neg neg ge), data ▸ putField_mod_below _ _ _ _, data ▸ putField_div_above _ _ _ _⟩

end Sys2Proof.Channels
end

section
/-! SUPPORT. What the template sources read (09 R142, R143), the record offered to TOP_FAULT (10 R164) and its
announcement (09 R144), and O46. -/

namespace Sys2Proof.Channels
open Sys2Proof Sys2Proof.Machine

/-! ## Sources -/

section
variable {s : State} {src : Source}

theorem sourceValue_of_neutral (h : src.neutralAt3 = true) :
    sourceValue s src = if s.faults.level = 3 then 0 else ownerValue s src := by
  unfold sourceValue
  simp only [h, and_true]

theorem sourceValue_of_held (h : src.neutralAt3 = false) : sourceValue s src = ownerValue s src := by
  unfold sourceValue
  simp only [h, Bool.false_eq_true, and_false, if_false]

end

theorem mask_cast (p : Spray) : (p.mask : Int) =
    (if p.banks.sl.isOpen then 1 else 0) + (if p.banks.sr.isOpen then 2 else 0) + (if p.banks.mb.isOpen then 4 else 0) := by
  unfold Spray.mask
  push_cast
  rfl

/-! ## The record offered -/

/-- The order in which records are offered (10 R164): the higher severity, then the lower entry order. -/
def Precedes (r q : FaultRec) : Prop := q.severity < r.severity ∨ (q.severity = r.severity ∧ r.order ≤ q.order)

theorem Precedes.refl (r : FaultRec) : Precedes r r := .inr ⟨rfl, le_rfl⟩
theorem Precedes.trans {r q p : FaultRec} (h : Precedes r q) (k : Precedes q p) : Precedes r p := by
  rcases h with h | ⟨h, a⟩ <;> rcases k with k | ⟨k, b⟩
  · exact .inl (k.trans h)
  · exact .inl (k ▸ h)
  · exact .inl (h ▸ k)
  · exact .inr ⟨k.trans h, a.trans b⟩

/-- The record kept when another is weighed against the best so far. -/
def moreUrgent (best : Option FaultRec) (r : FaultRec) : Option FaultRec :=
  match best with
  | none => some r
  | some q => if q.severity < r.severity ∨ (q.severity = r.severity ∧ r.order < q.order) then some r else some q

/-- The record kept is one of those weighed and precedes each of them. -/
theorem moreUrgent_spec (best : Option FaultRec) (r : FaultRec) :
    ∃ k, moreUrgent best r = some k ∧ (best = some k ∨ r = k) ∧ Precedes k r ∧ ∀ q, best = some q → Precedes k q := by
  cases best with
  | none => exact ⟨r, rfl, .inr rfl, .refl r, nofun⟩
  | some q =>
    by_cases higher : q.severity < r.severity ∨ (q.severity = r.severity ∧ r.order < q.order)
    · refine ⟨r, if_pos higher, .inr rfl, .refl r, ?_⟩
      rintro _ ⟨⟩
      exact higher.imp_right fun ⟨same, lower⟩ => ⟨same, lower.le⟩
    · refine ⟨q, if_neg higher, .inl rfl, ?_, ?_⟩
      · obtain ⟨notAbove, notBefore⟩ := not_or.1 higher
        rcases (not_lt.1 notAbove).lt_or_eq with below | same
        · exact .inl below
        · exact .inr ⟨same, not_lt.1 fun lower => notBefore ⟨same.symm, lower⟩⟩
      · rintro _ ⟨⟩
        exact .refl q

/-- Of the records weighed one after another, one is kept, and it precedes each. -/
theorem foldl_moreUrgent (l : List FaultRec) (best : Option FaultRec) :
    (l.foldl moreUrgent best = none → best = none ∧ l = [])
    ∧ ∀ k, l.foldl moreUrgent best = some k →
        (best = some k ∨ k ∈ l) ∧ (∀ q, best = some q → Precedes k q) ∧ ∀ q ∈ l, Precedes k q := by
  induction l generalizing best with
  | nil =>
    refine ⟨fun h => ⟨h, rfl⟩, fun k h => ⟨.inl h, fun q e => ?_, nofun⟩⟩
    obtain rfl := Option.some.inj (h.symm.trans e)
    exact .refl _
  | cons r l ih =>
    obtain ⟨m, kept, origin, overR, overBest⟩ := moreUrgent_spec best r
    rw [List.foldl_cons, kept]
    obtain ⟨empty, found⟩ := ih (some m)
    refine ⟨fun h => absurd (empty h).1 nofun, fun k h => ?_⟩
    obtain ⟨chosen, overKept, overRest⟩ := found k h
    have overM : Precedes k m := overKept m rfl
    refine ⟨?_, fun q e => overM.trans (overBest q e), ?_⟩
    · rcases chosen with same | mem
      · rcases origin with before | rfl
        · exact .inl (before.trans same)
        · exact .inr (Option.some.inj same ▸ List.mem_cons_self)
      · exact .inr (List.mem_cons_of_mem _ mem)
    · intro q mem
      rcases List.mem_cons.1 mem with rfl | mem
      · exact overM.trans overR
      · exact overRest q mem

/-- A record that may be offered: unannounced, at or above the notify threshold (10 R164). -/
def Candidate (f : Faults) (threshold : Fin 4) (r : FaultRec) : Prop :=
  r ∈ f.records ∧ r.announced = false ∧ threshold ≤ r.severity

section
variable {f : Faults} {threshold : Fin 4}

theorem top_eq : f.top threshold =
    (f.records.filter fun r => !r.announced && decide (threshold ≤ r.severity)).foldl moreUrgent none := rfl

theorem mem_candidates {r : FaultRec} :
    r ∈ f.records.filter (fun r => !r.announced && decide (threshold ≤ r.severity)) ↔ Candidate f threshold r := by
  simp [Candidate]

/-- The record offered is a candidate that precedes every other. -/
theorem top_some {r : FaultRec} (h : f.top threshold = some r) :
    Candidate f threshold r ∧ ∀ q, Candidate f threshold q → Precedes r q := by
  obtain ⟨origin, -, first⟩ := (foldl_moreUrgent _ none).2 r (top_eq ▸ h)
  exact ⟨mem_candidates.1 (origin.resolve_left nofun), fun q c => first q (mem_candidates.2 c)⟩

theorem top_none_iff : f.top threshold = none ↔ ∀ r, ¬Candidate f threshold r := by
  constructor
  · intro h r c
    have empty := ((foldl_moreUrgent _ none).1 (top_eq ▸ h)).2
    exact List.not_mem_nil (empty ▸ mem_candidates.2 c)
  · intro h
    cases e : f.top threshold with
    | none => rfl
    | some r => exact absurd (top_some e).1 (h r)

end

/-! ## Its announcement -/

/-- The record that a frame of a template names when it enters a queue. -/
def namedBy (t : Template) (s : State) : Option FaultRec :=
  if t.carriesTop then s.faults.top s.tables.drive.notifyThreshold else none

/-- The fault list after a record is named, or none. -/
def naming (f : Faults) (r : Option FaultRec) : Faults := r.elim f fun r => f.announce r.order

theorem announceTop_eq (t : Template) (s : State) :
    announceTop t s = { s with faults := naming s.faults (namedBy t s) } := by
  unfold announceTop namedBy
  split
  · split
    · next e => rw [e]; rfl
    · next e => rw [e]; rfl
  · rfl

/-- Naming a record changes the records only. -/
theorem naming_frame (f : Faults) (r : Option FaultRec) :
    naming f r = { f with places := (naming f r).places, aggregate := (naming f r).aggregate } := by
  cases r <;> rfl

/-- A frame placed: the record enters the port's queue, the channel has one more out, and the record named is announced. -/
theorem placeChannelFrame_eq (ch : Fin 6) (n : Nat) (q : Port) (s : State) : placeChannelFrame ch n q s =
    { s with
      faults := naming s.faults (namedBy (s.template n) s)
      ports := s.ports.set q ((s.ports.get q).enter (buildFrame s (s.template n)) (.channel ch))
      channels := s.channels.set ch { s.channels[ch] with out := s.channels[ch].out + 1 } } := by
  unfold placeChannelFrame
  rw [announceTop_eq]
  rfl

theorem announce_records (f : Faults) (n : Nat) : (f.announce n).records =
    f.records.map fun r => if r.order = n then { r with announced := true } else r := by
  unfold Faults.records Faults.announce
  rw [Vector.toList_map, List.filterMap_map, List.map_append, List.map_filterMap]
  congr 1
  cases f.aggregate <;> rfl

/-- Where no two records have the same entry order, the announcement marks exactly the record named. -/
theorem naming_records {s : State} (distinct : FaultOrdersOk s) {r : FaultRec} (mem : r ∈ s.faults.records) :
    (naming s.faults (some r)).records =
      s.faults.records.map fun x => if x = r then { x with announced := true } else x := by
  have nodup : (s.faults.records.map (·.order)).Nodup := List.pairwise_map.2 distinct.1
  refine (announce_records _ _).trans (List.map_congr_left fun x hx => ?_)
  have same : x.order = r.order ↔ x = r := ⟨List.inj_on_of_nodup_map nodup hx mem, congrArg _⟩
  simp only [same]

theorem namedBy_mem {t : Template} {s : State} {r : FaultRec} (h : namedBy t s = some r) : r ∈ s.faults.records := by
  unfold namedBy at h
  split at h
  · exact (top_some h).1.1
  · cases h

/-- Settles O46: the sources by whether they command motion, the record offered as the first in its order, and the frame
placed. -/
theorem sourcesReadTheirOwners : Obligations.SourcesReadTheirOwners := by
  unfold Obligations.SourcesReadTheirOwners
  refine ⟨fun s n a => ?_, fun f threshold => ⟨top_none_iff, fun r h => top_some h⟩, fun s ch n q distinct => ?_⟩
  · refine ⟨sourceValue_of_neutral rfl, sourceValue_of_neutral rfl, sourceValue_of_neutral rfl, sourceValue_of_neutral rfl,
      sourceValue_of_neutral rfl, mask_cast s.spray ▸ sourceValue_of_neutral rfl, sourceValue_of_held rfl,
      sourceValue_of_held rfl, sourceValue_of_held rfl, sourceValue_of_held rfl, sourceValue_of_held rfl,
      sourceValue_of_held rfl, sourceValue_of_held rfl, sourceValue_of_held rfl, sourceValue_of_held rfl,
      sourceValue_of_held rfl, fun silent => ?_, fun r offered => ?_⟩
    · rw [sourceValue_of_held rfl, ownerValue, silent]; rfl
    · rw [sourceValue_of_held rfl, ownerValue, offered]; rfl
  · show (∀ r, namedBy (s.template n) s = some r → _) ∧ (namedBy (s.template n) s = none → _) ∧ _
    dsimp only
    rw [placeChannelFrame_eq]
    refine ⟨fun r named => ?_, fun silent => ?_, ?_⟩
    · rw [named]; exact naming_records distinct (namedBy_mem named)
    · rw [silent]; rfl
    · exact congrArg (fun f => { s with
        faults := f
        ports := s.ports.set q ((s.ports.get q).enter (buildFrame s (s.template n)) (.channel ch))
        channels := s.channels.set ch { s.channels[ch] with out := s.channels[ch].out + 1 } }) (naming_frame _ _)

end Sys2Proof.Channels
end

section
/-! SUPPORT. A channel's record inside a state, and the completion of a send (09 R152, R153): O49. -/

namespace Sys2Proof.Channels
open Sys2Proof Sys2Proof.Machine

/-! ## The record of one channel -/

/-- The state with the record of a channel replaced. -/
def setChan (ch : Fin 6) (c : ChanRun) (s : State) : State := { s with channels := s.channels.set ch c }

section
variable (ch : Fin 6) (c d : ChanRun) (s : State)

theorem onChan_eq (f : ChanRun → ChanRun) : onChan ch f s = setChan ch (f s.channels[ch]) s := rfl

@[simp] theorem setChan_chan : (setChan ch c s).chan ch = c := Vector.getElem_set_self ch.isLt

@[simp] theorem setChan_setChan : setChan ch d (setChan ch c s) = setChan ch d s :=
  congrArg (fun v => { s with channels := v }) (Vector.set_set c ch.isLt)

theorem setChan_own : setChan ch (s.chan ch) s = s :=
  congrArg (fun v => { s with channels := v }) (Vector.set_getElem_self ch.isLt)

@[simp] theorem onChan_setChan (f : ChanRun → ChanRun) : onChan ch f (setChan ch c s) = setChan ch (f c) s := by
  rw [onChan_eq, setChan_setChan]
  exact congrArg (fun x => setChan ch (f x) s) (setChan_chan ch c s)

@[simp] theorem setChan_chanCfg : (setChan ch c s).chanCfg ch = s.chanCfg ch := rfl

end

/-! ## The completion of a send -/

/-- The record of a channel whose send is over. -/
def idled (c : ChanRun) : ChanRun := { c with state := .idle, stop := false }

section
variable {ch : Fin 6} {s : State}

/-- A send that a stop mark or a continuous channel leaves uncounted. -/
theorem sendEnded_uncounted (h : (s.chan ch).stop = true ∨ (s.chanCfg ch).continuous = true) :
    sendEnded ch s = setChan ch (idled (s.chan ch)) s := by
  have counted : (!s.channels[ch].stop && !(s.tables.channels[ch]).continuous) = false := by
    rcases h with stop | continuous
    · exact (congrArg (! · && _) stop).trans rfl
    · exact (congrArg (_ && ! ·) continuous).trans (Bool.and_false _)
  unfold sendEnded
  simp only [counted, Bool.false_and, Bool.false_eq_true, if_false, Bool.or_false]
  rfl

/-- A send without a stop mark of a channel that is not continuous counts. -/
theorem counts (stop : (s.chan ch).stop = false) (continuous : (s.chanCfg ch).continuous = false) :
    (!s.channels[ch].stop && !(s.tables.channels[ch]).continuous) = true :=
  Bool.and_eq_true_iff.2 ⟨(congrArg not stop).trans rfl, (congrArg not continuous).trans rfl⟩

/-- A counted send that is not the last. -/
theorem sendEnded_more (stop : (s.chan ch).stop = false) (continuous : (s.chanCfg ch).continuous = false)
    (more : (s.chan ch).remaining - 1 ≠ 0) :
    sendEnded ch s =
      setChan ch { idled (s.chan ch) with remaining := (s.chan ch).remaining - 1 } s := by
  have counted := counts stop continuous
  have more : s.channels[ch].remaining - 1 ≠ 0 := more
  unfold sendEnded
  simp only [counted, more, decide_false, Bool.and_false, Bool.false_and, Bool.false_eq_true, if_true, if_false,
    Bool.or_false]
  rfl

/-- The last send: the channel is disabled and done, and FAULT_CHANGE is marked with notify set. -/
theorem sendEnded_last (stop : (s.chan ch).stop = false) (continuous : (s.chanCfg ch).continuous = false)
    (last : (s.chan ch).remaining - 1 = 0) :
    sendEnded ch s = markFaultChangeIf (s.chanCfg ch).notify (setChan ch
      { idled (s.chan ch) with remaining := 0, enable := false, done := true } s) := by
  have counted := counts stop continuous
  have last : s.channels[ch].remaining - 1 = 0 := last
  unfold sendEnded
  simp only [counted, last, decide_true, Bool.and_true, Bool.true_and, if_true]
  show _ = markFaultChangeIf (s.tables.channels[ch]).notify _
  cases (s.tables.channels[ch]).notify with
  | true => rw [Bool.or_true]; rfl
  | false => rw [Bool.or_false]; rfl

section
variable (start : Fin 6 → State → State) {c : ChanRun}

/-- The count of a continuous channel stands. -/
theorem countSend_continuous (continuous : (s.chanCfg ch).continuous = true) : countSend start ch s = s := if_pos continuous

/-- The count of any other channel falls by 1. -/
theorem countSend_more (continuous : (s.chanCfg ch).continuous = false) (more : c.remaining - 1 ≠ 0) :
    countSend start ch (setChan ch c s) = setChan ch { c with remaining := c.remaining - 1 } s := by
  unfold countSend
  simp only [setChan_chanCfg, continuous, setChan_chan, onChan_setChan, more, Bool.false_eq_true, if_false]

/-- At 0 the channel disables itself and is done. -/
theorem countSend_last (continuous : (s.chanCfg ch).continuous = false) (last : c.remaining - 1 = 0)
    (alone : (s.chanCfg ch).chain = none) :
    countSend start ch (setChan ch c s) = markFaultChangeIf (s.chanCfg ch).notify
      (setChan ch { c with remaining := 0, enable := false, pending := false, done := true } s) := by
  unfold countSend
  simp only [setChan_chanCfg, continuous, setChan_chan, onChan_setChan, last, alone, Bool.false_eq_true, if_false, if_true]
  rfl

/-- What a completed send leaves is left by its count, where no pending trigger then starts another. -/
theorem completeWith_silent {u : State}
    (counted : (if (s.chan ch).stop then setChan ch (idled (s.chan ch)) s
      else countSend start ch (setChan ch (idled (s.chan ch)) s)) = u)
    (silent : (u.chan ch).pending = false) : completeWith start ch s = u := by
  have ended : completeWith start ch s =
      if (u.chan ch).enable && (u.chan ch).pending && (u.chan ch).state == .idle then start ch u else u := by
    rw [← counted]
    rfl
  rw [ended, silent, Bool.and_false, Bool.false_and]
  exact if_neg Bool.false_ne_true

end

theorem markFaultChangeIf_chan (b : Bool) (s : State) : (markFaultChangeIf b s).chan ch = s.chan ch := by cases b <;> rfl

/-- A send that completes with no trigger pending and no chain target to trigger ends as `sendEnded` says. -/
theorem completeWith_eq (start : Fin 6 → State → State) (silent : (s.chan ch).pending = false)
    (alone : (s.chan ch).stop = true ∨ (s.chanCfg ch).continuous = true ∨ (s.chanCfg ch).chain = none) :
    completeWith start ch s = sendEnded ch s := by
  cases stop : (s.chan ch).stop with
  | true =>
    rw [sendEnded_uncounted (.inl stop)]
    refine completeWith_silent start (if_pos stop) ?_
    rw [setChan_chan]; exact silent
  | false =>
    have unstopped : ¬(s.chan ch).stop = true := Bool.eq_false_iff.1 stop
    cases continuous : (s.chanCfg ch).continuous with
    | true =>
      rw [sendEnded_uncounted (.inr continuous)]
      refine completeWith_silent start ((if_neg unstopped).trans (countSend_continuous start continuous)) ?_
      rw [setChan_chan]; exact silent
    | false =>
      by_cases last : (s.chan ch).remaining - 1 = 0
      · have target : (s.chanCfg ch).chain = none := by simpa [stop, continuous] using alone
        rw [sendEnded_last stop continuous last]
        refine completeWith_silent start ?_ ?_
        · rw [if_neg unstopped, countSend_last start (c := idled (s.chan ch)) continuous last target]
          exact congrArg (fun b => markFaultChangeIf _ (setChan ch { idled (s.chan ch) with
            remaining := 0, enable := false, pending := b, done := true } s)) silent.symm
        · rw [markFaultChangeIf_chan, setChan_chan]; exact silent
      · rw [sendEnded_more stop continuous last]
        refine completeWith_silent start ((if_neg unstopped).trans (countSend_more start continuous last)) ?_
        rw [setChan_chan]; exact silent

end

theorem sendComplete_iff {ch : Fin 6} {s : State} :
    sendComplete ch s = true ↔ (s.chan ch).state = .sending ∧ (s.chan ch).out = 0 := by
  unfold sendComplete
  rw [Bool.and_eq_true, beq_iff_eq, beq_iff_eq]

/-- Settles O49: a complete send ends as `sendEnded` says, and one that is not complete is no event. -/
theorem sendIsCompleted : Obligations.SendIsCompleted := by
  unfold Obligations.SendIsCompleted
  intro ch s running
  refine ⟨fun sending out silent alone => ?_, fun busy => happens_not (.inr ?_)⟩
  · have complete : sendComplete ch s = true := sendComplete_iff.2 ⟨sending, out⟩
    have body : completeIfDone ch s.opened = sendEnded ch s.opened :=
      (if_pos complete).trans (completeWith_eq _ silent (.inr (.inr alone)))
    exact .of (happens_of running complete) (body ▸ ⟨rfl, rfl⟩)
  · rw [← Bool.not_eq_true, sendComplete_iff]
    exact not_and_or.2 busy

end Sys2Proof.Channels
end

section
/-! SUPPORT. The offers of a send, one and a run of them (09 R149 to R151, R154), against `enterRun` and `RunOffered`. -/

namespace Sys2Proof.Channels
open Sys2Proof Sys2Proof.Machine

/-! ## A report beside a channel's record -/

section
variable (ch : Fin 6) (c : ChanRun) (k : Kind) (n : Nat) (sev : Fin 4) (s : State)

@[simp] theorem setChan_faults : (setChan ch c s).faults = s.faults := rfl
@[simp] theorem setChan_ports : (setChan ch c s).ports = s.ports := rfl
@[simp] theorem setChan_template (n : Nat) : (setChan ch c s).template n = s.template n := rfl

/-- The kept condition of a report no longer waits. -/
def settling : State := { s with faults := s.faults.settled k n }

theorem settling_setChan : settling k n (setChan ch c s) = setChan ch c (settling k n s) := rfl

theorem markFaultChangeIf_setChan (b : Bool) :
    markFaultChangeIf b (setChan ch c s) = setChan ch c (markFaultChangeIf b s) := by cases b <;> rfl

theorem mergeReport_setChan (counted : Bool) :
    mergeReport k n sev counted (setChan ch c s) = setChan ch c (mergeReport k n sev counted s) := by
  unfold mergeReport
  dsimp only [setChan_faults]
  cases s.faults.aggregate with
  | none => rfl
  | some r => exact markFaultChangeIf_setChan ch c { s with faults.aggregate := some (r.join k n counted sev) } _

theorem enterRecord_setChan : enterRecord k n sev (setChan ch c s) = setChan ch c (enterRecord k n sev s) := by
  unfold enterRecord
  dsimp only [setChan_faults]
  cases vfind s.faults.places (·.isNone) with
  | some i => rfl
  | none =>
    cases s.faults.victim sev with
    | some p => rfl
    | none => exact mergeReport_setChan ..

theorem reportBegun_setChan : reportBegun k n sev (setChan ch c s) = setChan ch c (reportBegun k n sev s) := by
  unfold reportBegun
  dsimp only [setChan_faults]
  generalize (!s.faults.waits k n) = counted
  cases (s.faults.settled k n).find k n with
  | some i =>
    dsimp only
    cases h : (s.faults.settled k n).places[i] with
    | none => rfl
    | some r =>
      exact markFaultChangeIf_setChan ch c { settling k n s with
        faults.places := (s.faults.settled k n).places.set i (some (r.takeReport counted sev)) } _
  | none =>
    dsimp only
    cases (s.faults.settled k n).mergedHas k n with
    | true => exact mergeReport_setChan ch c k n sev (settling k n s) counted
    | false => exact enterRecord_setChan ch c k n sev (settling k n s)

theorem reportEnded_setChan : reportEnded k n (setChan ch c s) = setChan ch c (reportEnded k n s) := by
  unfold reportEnded
  dsimp only [setChan_faults]
  cases (s.faults.settled k n).find k n with
  | some i => rfl
  | none => cases (s.faults.settled k n).mergedHas k n <;> rfl

theorem reportOnce_setChan : reportOnce k n sev (setChan ch c s) = setChan ch c (reportOnce k n sev s) := by
  unfold reportOnce
  rw [reportBegun_setChan, reportEnded_setChan]

end

/-! ## A frame entered -/

section
variable (p : PortUnit) (f : Frame) (o : Origin)

theorem enter_on : (p.enter f o).on = p.on := by
  unfold PortUnit.enter PortUnit.offerLink
  split <;> rfl

theorem enter_length : (p.enter f o).queue.length = p.queue.length + 1 := by
  have queue : (p.enter f o).queue = p.queue ++ [{ frame := f, origin := o, order := p.nextOrder }] := by
    unfold PortUnit.enter PortUnit.offerLink
    split <;> rfl
  rw [queue, List.length_append, List.length_singleton]

end

theorem announceTop_setChan (t : Template) (ch : Fin 6) (c : ChanRun) (s : State) :
    announceTop t (setChan ch c s) = setChan ch c (announceTop t s) := by
  rw [announceTop_eq, announceTop_eq]
  rfl

theorem onPort_setChan (ch : Fin 6) (c : ChanRun) (s : State) (q f) :
    (setChan ch c s).onPort q f = setChan ch c (s.onPort q f) := rfl

theorem stall_setChan (ch : Fin 6) (c : ChanRun) (n : Nat) (q : Port) (s : State) : stall ch n q (setChan ch c s) =
    setChan ch { c with state := .stalled, awaited := some n }
      (s.onPort q fun p => { p with holders := p.holders ++ [.channel ch] }) := by
  unfold stall
  rw [onPort_setChan, onChan_setChan]

theorem placeChannelFrame_setChan (ch : Fin 6) (c : ChanRun) (n : Nat) (q : Port) (s : State) :
    placeChannelFrame ch n q (setChan ch c s) = setChan ch { c with out := c.out + 1 }
      (announceTop (s.template n) (s.onPort q fun p => p.enter (buildFrame s (s.template n)) (.channel ch))) := by
  unfold placeChannelFrame
  dsimp only
  rw [onPort_setChan, onChan_setChan, announceTop_setChan]
  rfl

section
variable (ch : Fin 6) (w : State) (n : Nat) (l : List Nat)

theorem enterRun_cons : enterRun ch (n :: l) w = enterRun ch l (enterRun ch [n] w) := rfl

theorem enterRun_off (off : (w.ports.get (w.template n).port).on = false) : enterRun ch [n] w = w :=
  if_neg (Bool.eq_false_iff.1 off)

theorem enterRun_on (on : (w.ports.get (w.template n).port).on = true) :
    enterRun ch [n] w = { w with
      faults := naming w.faults (namedBy (w.template n) w)
      ports := w.ports.set (w.template n).port
        ((w.ports.get (w.template n).port).enter (buildFrame w (w.template n)) (.channel ch)) } :=
  (if_pos on).trans (announceTop_eq _ _)

theorem enterRun_one_frame :
    enterRun ch [n] w = { w with faults := (enterRun ch [n] w).faults, ports := (enterRun ch [n] w).ports } := by
  cases on : (w.ports.get (w.template n).port).on with
  | true => rw [enterRun_on ch w n on]
  | false => rw [enterRun_off ch w n on]

/-- A run entered changes neither the tables nor the channels. -/
theorem enterRun_tables : (enterRun ch l w).tables = w.tables := by
  induction l generalizing w with
  | nil => rfl
  | cons n l ih => rw [enterRun_cons, ih, enterRun_one_frame]

theorem enterRun_channels : (enterRun ch l w).channels = w.channels := by
  induction l generalizing w with
  | nil => rfl
  | cons n l ih => rw [enterRun_cons, ih, enterRun_one_frame]

/-- The port of the frame has one record more if it is ON; nothing else about the links and the lengths changes. -/
theorem enterRun_one_port (q : Port) :
    ((enterRun ch [n] w).ports.get q).on = (w.ports.get q).on
    ∧ ((w.ports.get q).on = true → ((enterRun ch [n] w).ports.get q).queue.length =
        (w.ports.get q).queue.length + if (w.template n).port == q then 1 else 0) := by
  cases on : (w.ports.get (w.template n).port).on with
  | true =>
    rw [enterRun_on ch w n on]
    by_cases same : (w.template n).port = q
    · subst same
      simp only [PerPort.get_set_same, enter_on, enter_length, beq_self_eq_true, if_true, implies_true, and_self]
    · simp only [PerPort.get_set_other _ _ (Ne.symm same), beq_eq_false_iff_ne.2 same, Bool.false_eq_true, if_false,
        Nat.add_zero, implies_true, and_self]
  | false =>
    rw [enterRun_off ch w n on]
    refine ⟨rfl, fun up => ?_⟩
    have other : (w.template n).port ≠ q := by rintro rfl; exact Bool.false_ne_true (on.symm.trans up)
    rw [beq_eq_false_iff_ne.2 other]
    rfl

theorem enterRun_one_template (m : Nat) : (enterRun ch [n] w).template m = w.template m := by
  unfold State.template
  rw [enterRun_tables]

theorem enterRun_one_windows (q : Port) (f : Fmt) (i : Ident) :
    insideWindows (enterRun ch [n] w) q f i = insideWindows w q f i := by
  unfold insideWindows
  rw [enterRun_tables]

theorem entering_cons : entering w (n :: l) = entering w [n] + entering (enterRun ch [n] w) l := by
  have later : entering (enterRun ch [n] w) l = entering w l := by
    unfold entering
    simp only [enterRun_one_template, (enterRun_one_port ch w n _).1]
  rw [later]
  exact List.countP_append (l₁ := [n]) (l₂ := l)

end

/-! ## A frame taken -/

/-- The frame of template `n` lies inside the windows of its port (01 R18). -/
def InsideAt (w : State) (n : Nat) : Prop :=
  insideWindows w (w.template n).port (w.template n).fmt (w.template n).id = true

/-- An offer of template `n` is taken: the frame lies inside the windows, and its port is OFF or has a place (09 R151). -/
def TakenAt (w : State) (n : Nat) : Prop :=
  InsideAt w n
  ∧ ((w.ports.get (w.template n).port).on = true → (w.ports.get (w.template n).port).full = false)

section
variable {w : State} {n : Nat} {l : List Nat}

theorem runTaken_head (h : RunTaken w (n :: l)) : TakenAt w n := by
  obtain ⟨inside, places⟩ := h
  refine ⟨inside n List.mem_cons_self, fun on => decide_eq_false ?_⟩
  have room := places _ on
  rw [List.countP_cons, beq_self_eq_true, if_pos rfl] at room
  omega

theorem runTaken_tail (ch : Fin 6) (h : RunTaken w (n :: l)) : RunTaken (enterRun ch [n] w) l := by
  obtain ⟨inside, places⟩ := h
  refine ⟨fun m mem => ?_, fun q on => ?_⟩
  · rw [enterRun_one_template, enterRun_one_windows]
    exact inside m (List.mem_cons_of_mem _ mem)
  · obtain ⟨link, length⟩ := enterRun_one_port ch w n q
    rw [link] at on
    have room := places q on
    rw [List.countP_cons] at room
    simp only [length on, enterRun_one_template]
    omega

end

/-! ## One offer -/

/-- The record of a channel whose frame lies outside the windows (09 R154). -/
def refused (c : ChanRun) : ChanRun := { c with enable := false, pending := false, stop := true }

/-- The record of a channel whose frame has been taken (09 R149 to R151). -/
def taken (ch : Fin 6) (w : State) (c : ChanRun) : ChanRun :=
  { c with out := c.out + entering w [c.position], position := (w.chanCfg ch).next c.position }

section
variable {ch : Fin 6} {c : ChanRun} {w : State}

theorem offerOne_refused (outside : ¬InsideAt w c.position) :
    offerOne ch (setChan ch c w) = (false, setChan ch (refused c) (reportOnce .sendWindow ch.val 1 w)) := by
  unfold offerOne
  simp only [setChan_chan, setChan_ports, setChan_template]
  refine (if_neg outside).trans ?_
  unfold refuseWindow
  rw [onChan_setChan, reportOnce_setChan]
  rfl

theorem offerOne_stalled (inside : InsideAt w c.position)
    (on : (w.ports.get (w.template c.position).port).on = true)
    (full : (w.ports.get (w.template c.position).port).full = true) :
    offerOne ch (setChan ch c w) = (false, setChan ch { c with state := .stalled, awaited := some c.position }
      (w.onPort (w.template c.position).port fun p => { p with holders := p.holders ++ [.channel ch] })) := by
  unfold offerOne
  simp only [setChan_chan, setChan_ports, setChan_template]
  refine (if_pos inside).trans ((if_neg ?_).trans ((if_pos full).trans (congrArg (Prod.mk false) (stall_setChan ..))))
  simpa using on

theorem offerOne_taken (h : TakenAt w c.position) :
    offerOne ch (setChan ch c w) =
      (true, setChan ch { c with out := c.out + entering w [c.position] } (enterRun ch [c.position] w)) := by
  obtain ⟨inside, free⟩ := h
  unfold offerOne
  simp only [setChan_chan, setChan_ports, setChan_template]
  refine (if_pos inside).trans ?_
  cases on : (w.ports.get (w.template c.position).port).on with
  | true =>
    have one : entering w [c.position] = 1 := by simp [entering, on]
    rw [one]
    refine (if_neg ?_).trans ((if_neg ?_).trans ?_)
    · simp
    · simpa using free on
    · have entered : enterRun ch [c.position] w = announceTop (w.template c.position)
        (w.onPort (w.template c.position).port fun p => p.enter (buildFrame w (w.template c.position)) (.channel ch)) :=
        if_pos on
      rw [entered, placeChannelFrame_setChan]
  | false =>
    have nothing : entering w [c.position] = 0 := by simp [entering, on]
    rw [nothing, enterRun_off ch w _ on]
    exact if_pos (by simp)

theorem stepPosition_setChan (stop : c.stop = false) :
    stepPosition ch (setChan ch c w) = setChan ch { c with position := (w.chanCfg ch).next c.position } w := by
  unfold stepPosition
  rw [onChan_setChan, setChan_chanCfg, stop]
  rfl

theorem moreToOffer_setChan : moreToOffer ch (setChan ch c w) =
    (!c.stop && (w.chanCfg ch).sequence && c.position != (w.chanCfg ch).runStart) := by
  unfold moreToOffer
  rw [setChan_chan, setChan_chanCfg]

/-! ## A run of offers -/

variable {fuel : Nat}

theorem offerRun_of_false {s u : State} (h : offerOne ch s = (false, u)) : offerRun (fuel + 1) ch s = u := by
  unfold offerRun
  rw [h]

theorem offerRun_of_taken (h : TakenAt w c.position) (stop : c.stop = false) :
    offerRun (fuel + 1) ch (setChan ch c w) =
      if (w.chanCfg ch).sequence && (w.chanCfg ch).next c.position != (w.chanCfg ch).runStart then
        offerRun fuel ch (setChan ch (taken ch w c) (enterRun ch [c.position] w))
      else setChan ch (taken ch w c) (enterRun ch [c.position] w) := by
  have cfg : (enterRun ch [c.position] w).chanCfg ch = w.chanCfg ch := by
    unfold State.chanCfg
    rw [enterRun_tables]
  have stepped : stepPosition ch
      (setChan ch { c with out := c.out + entering w [c.position] } (enterRun ch [c.position] w)) =
      setChan ch (taken ch w c) (enterRun ch [c.position] w) := by
    rw [stepPosition_setChan (by exact stop), cfg]
    rfl
  have more : moreToOffer ch (setChan ch (taken ch w c) (enterRun ch [c.position] w)) =
      ((w.chanCfg ch).sequence && (w.chanCfg ch).next c.position != (w.chanCfg ch).runStart) := by
    have unstopped : (taken ch w c).stop = false := stop
    rw [moreToOffer_setChan, cfg, unstopped]
    rfl
  rw [offerRun, offerOne_taken h]
  dsimp only
  rw [stepped, more]

end

/-- A SEQUENCE send of channel `ch`, its record being `c`, is about to offer the template at its position, which lies in the
run, and no fewer offers are left than templates. -/
structure OffersFrom (ch : Fin 6) (c : ChanRun) (w : State) (fuel : Nat) : Prop where
  sequence : (w.chanCfg ch).sequence = true
  stop : c.stop = false
  sending : c.state = .sending
  start : (w.chanCfg ch).runStart ≤ c.position
  last : c.position < (w.chanCfg ch).runStart + (w.chanCfg ch).runLen
  fuel : (w.chanCfg ch).runStart + (w.chanCfg ch).runLen ≤ c.position + fuel

section
variable {ch : Fin 6} {c : ChanRun} {w : State} {fuel : Nat}

theorem taken_position_inner (h : c.position + 1 < (w.chanCfg ch).runStart + (w.chanCfg ch).runLen) :
    (taken ch w c).position = c.position + 1 := if_pos h
theorem taken_position_last (h : ¬c.position + 1 < (w.chanCfg ch).runStart + (w.chanCfg ch).runLen) :
    (taken ch w c).position = (w.chanCfg ch).runStart := if_neg h

theorem enterRun_chanCfg (l : List Nat) : (enterRun ch l w).chanCfg ch = w.chanCfg ch := by
  unfold State.chanCfg
  rw [enterRun_tables]

theorem OffersFrom.next (h : OffersFrom ch c w (fuel + 1))
    (inner : c.position + 1 < (w.chanCfg ch).runStart + (w.chanCfg ch).runLen) :
    OffersFrom ch (taken ch w c) (enterRun ch [c.position] w) fuel := by
  refine ⟨?_, h.stop, h.sending, ?_, ?_, ?_⟩ <;> rw [enterRun_chanCfg]
  · exact h.sequence
  · rw [taken_position_inner inner]; exact h.start.trans (Nat.le_succ _)
  · rw [taken_position_inner inner]; exact inner
  · rw [taken_position_inner inner]; have := h.fuel; omega

theorem reportOnce_channels (k n sev) (s : State) : (reportOnce k n sev s).channels = s.channels := by
  obtain ⟨-, -, -, -, channels, -⟩ := (reportOnce_reports k n sev s).kept
  exact channels

/-- Nothing has been taken yet: the next offer finds a full queue or is refused. -/
theorem runOffered_none (h : OffersFrom ch c w (fuel + 1)) :
    RunOffered ch c c.position 0 w (offerRun (fuel + 1) ch (setChan ch c w)) := by
  intro _
  refine ⟨fun ended => absurd ended h.last.ne, fun _ inside on full => ?_, fun _ outside => ?_⟩
  · rw [offerRun_of_false (offerOne_stalled inside on full)]
    rfl
  · have own : refused c = { refused c with state := .sending } := by rw [← h.sending]; rfl
    rw [offerRun_of_false (offerOne_refused outside), own, setChan, reportOnce_channels]
    rfl

/-- The first template is taken, and the rest of the run is offered from there. -/
theorem runOffered_cons {k : Nat} {u : State}
    (h : RunOffered ch (taken ch w c) (c.position + 1) k (enterRun ch [c.position] w) u) :
    RunOffered ch c c.position (k + 1) w u := by
  have index : c.position + (k + 1) = c.position + 1 + k := by omega
  unfold RunOffered at h ⊢
  dsimp only at h ⊢
  rw [enterRun_tables ch w [c.position], enterRun_channels ch w [c.position], enterRun_one_template,
    enterRun_one_windows] at h
  rw [index, List.range'_succ, enterRun_cons, entering_cons ch, ← Nat.add_assoc]
  exact fun all => h (runTaken_tail ch all)

/-- The last template of the run is taken: the position returns to the run start. -/
theorem runOffered_last (k : Nat) (last : ¬c.position + 1 < (w.chanCfg ch).runStart + (w.chanCfg ch).runLen)
    (h : OffersFrom ch c w (fuel + 1)) :
    RunOffered ch c c.position (k + 1) w (setChan ch (taken ch w c) (enterRun ch [c.position] w)) := by
  intro all
  refine ⟨fun ended => ?_, fun more => ?_, fun more => ?_⟩
  · have one : k = 0 := by
      have := h.last
      change c.position + (k + 1) = (w.chanCfg ch).runStart + (w.chanCfg ch).runLen at ended
      omega
    subst one
    have own : taken ch w c = { taken ch w c with state := .sending, position := (w.chanCfg ch).runStart } := by
      rw [← taken_position_last last, ← h.sending]
      rfl
    rw [own, setChan, enterRun_channels]
    rfl
  all_goals
    change c.position + (k + 1) < (w.chanCfg ch).runStart + (w.chanCfg ch).runLen at more
    omega

/-- A SEQUENCE send offers the templates of its run in order (09 R150). -/
theorem offerRun_runOffered (k : Nat) (h : OffersFrom ch c w fuel) :
    RunOffered ch c c.position k w (offerRun fuel ch (setChan ch c w)) := by
  induction k generalizing c w fuel with
  | zero =>
    cases fuel with
    | zero => exact absurd h.fuel (not_le.2 h.last)
    | succ fuel => exact runOffered_none h
  | succ k ih =>
    cases fuel with
    | zero => exact absurd h.fuel (not_le.2 h.last)
    | succ fuel =>
      intro all
      have run : RunTaken w (c.position :: List.range' (c.position + 1) k) := List.range'_succ ▸ all
      have first : offerRun (fuel + 1) ch (setChan ch c w) = _ := offerRun_of_taken (runTaken_head run) h.stop
      by_cases inner : c.position + 1 < (w.chanCfg ch).runStart + (w.chanCfg ch).runLen
      · have more : (w.chanCfg ch).next c.position ≠ (w.chanCfg ch).runStart := by
          rw [show (w.chanCfg ch).next c.position = c.position + 1 from taken_position_inner inner]
          exact (Nat.lt_succ_of_le h.start).ne'
        rw [first, h.sequence, Bool.true_and, if_pos (bne_iff_ne.2 more)]
        have rest := ih (h.next inner)
        rw [taken_position_inner inner] at rest
        exact runOffered_cons rest all
      · have back : (w.chanCfg ch).next c.position = (w.chanCfg ch).runStart := taken_position_last inner
        rw [first, h.sequence, Bool.true_and, if_neg (by rw [back]; simp)]
        exact runOffered_last k inner h all

end

end Sys2Proof.Channels
end

section
/-! SUPPORT. A trigger and the send it starts (09 R147 to R154), and O48. -/

namespace Sys2Proof.Channels
open Sys2Proof Sys2Proof.Machine

/-! ## No trigger is pending in a send -/

section
variable {ch : Fin 6} {s : State}

/-- An offer sets no pending flag. -/
theorem offerOne_pending (silent : (s.chan ch).pending = false) : ((offerOne ch s).2.chan ch).pending = false := by
  rw [← setChan_own ch s]
  generalize s.chan ch = c at silent ⊢
  by_cases inside : InsideAt s c.position
  · by_cases full : (s.ports.get (s.template c.position).port).on = true
        ∧ (s.ports.get (s.template c.position).port).full = true
    · rw [offerOne_stalled inside full.1 full.2, setChan_chan]; exact silent
    · rw [offerOne_taken ⟨inside, by simpa using full⟩, setChan_chan]; exact silent
  · rw [offerOne_refused inside, setChan_chan]; rfl

theorem stepPosition_pending (silent : (s.chan ch).pending = false) : ((stepPosition ch s).chan ch).pending = false := by
  unfold stepPosition
  rw [onChan_eq, setChan_chan]
  split <;> exact silent

theorem offerRun_pending (fuel : Nat) (silent : (s.chan ch).pending = false) :
    ((offerRun fuel ch s).chan ch).pending = false := by
  induction fuel generalizing s with
  | zero => exact silent
  | succ fuel ih =>
    have offered := offerOne_pending silent
    unfold offerRun
    split
    · next u e =>
      rw [e] at offered
      dsimp only
      split
      · exact ih (stepPosition_pending offered)
      · exact stepPosition_pending offered
    · next u e => rw [e] at offered; exact offered

end

/-! ## The start and the end of a send -/

/-- The record of a channel whose send begins (09 R148, R150). -/
def begun (cfg : ChannelCfg) (c : ChanRun) : ChanRun :=
  { c with pending := false, state := .sending, position := if cfg.sequence then cfg.runStart else c.position }

/-- What a send leaves once its offers have left `v`: the same while it is not complete, and otherwise its completion, where
the count triggers no chain target. -/
def SendEnds (ch : Fin 6) (cfg : ChannelCfg) (v u : State) : Prop :=
  ((v.chan ch).state ≠ .sending ∨ (v.chan ch).out ≠ 0 → u = v)
  ∧ ((v.chan ch).state = .sending → (v.chan ch).out = 0 →
      (v.chan ch).stop = true ∨ cfg.continuous = true ∨ cfg.chain = none → u = sendEnded ch v)

section
variable {ch : Fin 6} {c : ChanRun} {w : State} {n : Nat}

theorem startSend_ends : SendEnds ch (w.chanCfg ch)
    (offerRun (w.chanCfg ch).runLen ch (setChan ch (begun (w.chanCfg ch) c) w)) (startSend (n + 1) ch (setChan ch c w)) := by
  have start : startSend (n + 1) ch (setChan ch c w) =
      (let v := offerRun (w.chanCfg ch).runLen ch (setChan ch (begun (w.chanCfg ch) c) w)
       if sendComplete ch v then completeWith (startSend n) ch v else v) := by
    unfold startSend beginSend
    rw [onChan_setChan]
    rfl
  have silent := offerRun_pending (ch := ch) (s := setChan ch (begun (w.chanCfg ch) c) w) (w.chanCfg ch).runLen
    (by rw [setChan_chan]; rfl)
  have cfg : (offerRun (w.chanCfg ch).runLen ch (setChan ch (begun (w.chanCfg ch) c) w)).chanCfg ch = w.chanCfg ch :=
    congrArg (fun t : Tables => t.channels[ch]) (offerRun_sends _ ch (setChan ch (begun (w.chanCfg ch) c) w)).ends.tables
  rw [start]
  generalize offerRun (w.chanCfg ch).runLen ch (setChan ch (begun (w.chanCfg ch) c) w) = v at silent cfg ⊢
  refine ⟨fun busy => if_neg ?_, fun sending out alone => (if_pos (sendComplete_iff.2 ⟨sending, out⟩)).trans ?_⟩
  · rw [sendComplete_iff]
    exact not_and_or.2 busy
  · exact completeWith_eq _ silent (cfg.symm ▸ alone)

/-! ## A trigger -/

theorem giveTrigger_disabled (off : c.enable = false) : giveTrigger ch (setChan ch c w) = setChan ch c w := by
  unfold giveTrigger triggerWith
  rw [setChan_chan, off]
  exact if_neg Bool.false_ne_true

theorem giveTrigger_busy (on : c.enable = true) (busy : c.state ≠ .idle) :
    giveTrigger ch (setChan ch c w) = setChan ch { c with pending := true } w := by
  unfold giveTrigger triggerWith
  rw [setChan_chan, if_pos on]
  dsimp only
  rw [onChan_setChan, setChan_chan]
  exact if_neg (by simpa using busy)

theorem giveTrigger_idle (on : c.enable = true) (idle : c.state = .idle) :
    giveTrigger ch (setChan ch c w) = startSend sendFuel ch (setChan ch { c with pending := true } w) := by
  unfold giveTrigger triggerWith
  rw [setChan_chan, if_pos on]
  dsimp only
  rw [onChan_setChan, setChan_chan]
  exact if_pos (by simpa using idle)

/-- An enabled channel that is IDLE sends (09 R148). -/
theorem giveTrigger_ends (on : c.enable = true) (idle : c.state = .idle) : SendEnds ch (w.chanCfg ch)
    (offerRun (w.chanCfg ch).runLen ch (setChan ch (begun (w.chanCfg ch) c) w)) (giveTrigger ch (setChan ch c w)) := by
  rw [giveTrigger_idle on idle]
  exact startSend_ends (c := { c with pending := true }) (n := 15)

/-! ## The offers of a send from its beginning -/

theorem namedBy_plain {t : Template} (plain : t.carriesTop = false) : namedBy t w = none :=
  if_neg (Bool.eq_false_iff.1 plain)

theorem begun_single {cfg : ChannelCfg} (single : cfg.sequence = false) :
    begun cfg c = { c with pending := false, state := .sending } := by
  unfold begun
  rw [single]
  rfl

theorem begun_sequence {cfg : ChannelCfg} (sequence : cfg.sequence = true) :
    begun cfg c = { c with pending := false, state := .sending, position := cfg.runStart } := by
  unfold begun
  rw [sequence]
  rfl

/-- The one offer of a SINGLE send, and its end. -/
theorem giveTrigger_single (on : c.enable = true) (idle : c.state = .idle)
    (single : (w.chanCfg ch).sequence = false) {v : State}
    (offer : offerRun (w.chanCfg ch).runLen ch (setChan ch { c with pending := false, state := .sending } w) = v) :
    SendEnds ch (w.chanCfg ch) v (giveTrigger ch (setChan ch c w)) := by
  rw [← offer, ← begun_single single]
  exact giveTrigger_ends on idle

section
variable (len : 1 ≤ (w.chanCfg ch).runLen)
include len

/-- A SINGLE send whose frame is taken offers nothing further (09 R149). -/
theorem offerRun_single_taken (single : (w.chanCfg ch).sequence = false) (stop : c.stop = false)
    (h : TakenAt w c.position) :
    offerRun (w.chanCfg ch).runLen ch (setChan ch c w) = setChan ch (taken ch w c) (enterRun ch [c.position] w) := by
  obtain ⟨k, e⟩ := Nat.exists_eq_add_of_le' len
  rw [e, offerRun_of_taken h stop, single]
  exact if_neg Bool.false_ne_true

theorem offerRun_not_taken {u : State} (h : offerOne ch (setChan ch c w) = (false, u)) :
    offerRun (w.chanCfg ch).runLen ch (setChan ch c w) = u := by
  obtain ⟨k, e⟩ := Nat.exists_eq_add_of_le' len
  rw [e]
  exact offerRun_of_false h

/-- A SEQUENCE send begins with its whole run before it (09 R150). -/
theorem offersFrom_begun (sequence : (w.chanCfg ch).sequence = true) (stop : c.stop = false) :
    OffersFrom ch (begun (w.chanCfg ch) c) w (w.chanCfg ch).runLen := by
  rw [begun_sequence sequence]
  exact ⟨sequence, stop, rfl, le_rfl, Nat.lt_add_of_pos_right len, le_rfl⟩

/-! ## A SINGLE send from IDLE -/

section
variable (on : c.enable = true) (idle : c.state = .idle) (single : (w.chanCfg ch).sequence = false)
include on idle single

theorem giveTrigger_single_taken (stop : c.stop = false) (h : TakenAt w c.position) : SendEnds ch (w.chanCfg ch)
    (setChan ch (taken ch w { c with pending := false, state := .sending }) (enterRun ch [c.position] w))
    (giveTrigger ch (setChan ch c w)) :=
  giveTrigger_single on idle single
    (offerRun_single_taken (c := { c with pending := false, state := .sending }) len single stop h)

/-- A frame built and queued (09 R149, R151). -/
theorem giveTrigger_single_placed (stop : c.stop = false) (h : TakenAt w c.position)
    (up : (w.ports.get (w.template c.position).port).on = true) :
    giveTrigger ch (setChan ch c w) = setChan ch
      { c with pending := false, state := .sending, out := c.out + 1, position := (w.chanCfg ch).next c.position }
      { w with
        faults := naming w.faults (namedBy (w.template c.position) w)
        ports := w.ports.set (w.template c.position).port
          ((w.ports.get (w.template c.position).port).enter (buildFrame w (w.template c.position)) (.channel ch)) } := by
  obtain ⟨busy, -⟩ := giveTrigger_single_taken len on idle single stop h
  have one : entering w [c.position] = 1 := by simp [entering, up]
  rw [← enterRun_on ch w _ up, ← one]
  refine busy (.inr ?_)
  rw [setChan_chan]
  show c.out + entering w [c.position] ≠ 0
  rw [one]
  exact Nat.succ_ne_zero _

/-- A full queue (09 R151). -/
theorem giveTrigger_single_stalled (inside : InsideAt w c.position)
    (up : (w.ports.get (w.template c.position).port).on = true)
    (full : (w.ports.get (w.template c.position).port).full = true) :
    giveTrigger ch (setChan ch c w) =
      setChan ch { c with pending := false, state := .stalled, awaited := some c.position }
      (w.onPort (w.template c.position).port fun p => { p with holders := p.holders ++ [.channel ch] }) := by
  obtain ⟨busy, -⟩ := giveTrigger_single on idle single
    (offerRun_not_taken len (offerOne_stalled (c := { c with pending := false, state := .sending }) inside up full))
  refine busy (.inl ?_)
  rw [setChan_chan]
  nofun

/-- An OFF port: the frame counts as sent and nothing is queued (09 R151). -/
theorem giveTrigger_single_counted (stop : c.stop = false) (h : TakenAt w c.position)
    (down : (w.ports.get (w.template c.position).port).on = false) : SendEnds ch (w.chanCfg ch)
    (setChan ch { c with pending := false, state := .sending, position := (w.chanCfg ch).next c.position } w)
    (giveTrigger ch (setChan ch c w)) := by
  have ends := giveTrigger_single_taken len on idle single stop h
  have nothing : entering w [c.position] = 0 := by simp [entering, down]
  rw [enterRun_off ch w _ down, taken, nothing] at ends
  exact ends

/-- A frame outside the windows (09 R154). -/
theorem giveTrigger_single_refused (outside : ¬InsideAt w c.position) : SendEnds ch (w.chanCfg ch)
      (setChan ch (refused { c with pending := false, state := .sending }) (reportOnce .sendWindow ch.val 1 w))
      (giveTrigger ch (setChan ch c w)) :=
  giveTrigger_single on idle single
    (offerRun_not_taken len (offerOne_refused (c := { c with pending := false, state := .sending }) outside))

end

/-! ## A SEQUENCE send from IDLE -/

/-- The offers of the run from its start, and the end of the send (09 R150). -/
theorem giveTrigger_sequence (on : c.enable = true) (idle : c.state = .idle)
    (sequence : (w.chanCfg ch).sequence = true) (stop : c.stop = false) :
    ∃ v, (∀ k, RunOffered ch { c with pending := false } (w.chanCfg ch).runStart k w v)
      ∧ SendEnds ch (w.chanCfg ch) v (giveTrigger ch (setChan ch c w)) := by
  refine ⟨_, fun k => ?_, giveTrigger_ends on idle⟩
  have offered := offerRun_runOffered k (offersFrom_begun len sequence stop)
  rw [begun_sequence sequence] at offered ⊢
  exact offered

end
end

/-- The record of a channel whose interval timer has been reloaded (09 R147). -/
def reloaded (ch : Fin 6) (w : State) : ChanRun := { w.chan ch with timer := (w.chanCfg ch).fullTimer }

theorem intervalExpired_eq (ch : Fin 6) (w : State) :
    intervalExpired ch w = giveTrigger ch (setChan ch (reloaded ch w) w) := rfl

/-- Settles O48: the trigger of the reloaded timer finds the channel disabled, in a send or IDLE, and the send of an IDLE
one is its offers and, where no record is out, its completion. -/
theorem intervalStartsASend : Obligations.IntervalStartsASend := by
  unfold Obligations.IntervalStartsASend
  intro ch s r running timer len
  have tables : (s.openedAt r).tables = s.tables := openedAt_tables r s
  have template (n : Nat) : s.template n = (s.openedAt r).template n := by unfold State.template; rw [tables]
  have windows (q f i) : insideWindows s q f i = insideWindows (s.openedAt r) q f i := by
    unfold insideWindows; rw [tables]
  dsimp only
  refine .of (expires_of (body := intervalExpired ch) running timer) ?_
  simp only [template, windows]
  rw [← tables] at len ⊢
  generalize s.openedAt r = w at len ⊢
  change 1 ≤ (w.chanCfg ch).runLen at len
  rw [intervalExpired_eq]
  refine ⟨giveTrigger_disabled (c := reloaded ch w), giveTrigger_busy (c := reloaded ch w), ?_, ?_, ?_, ?_, ?_⟩
  · rintro ⟨on, idle⟩ single stop inside up free
    rw [giveTrigger_single_placed (c := reloaded ch w) len on idle single stop ⟨inside, fun _ => free⟩ up, announceTop_eq]
    exact ⟨rfl, rfl, fun plain => congrArg (naming w.faults) (namedBy_plain plain)⟩
  · rintro ⟨on, idle⟩ single inside up full
    exact giveTrigger_single_stalled (c := reloaded ch w) len on idle single inside up full
  · rintro ⟨on, idle⟩ single inside down stop
    exact giveTrigger_single_counted (c := reloaded ch w) len on idle single stop
      ⟨inside, fun up => absurd (down.symm.trans up) nofun⟩ down
  · rintro ⟨on, idle⟩ single outside
    have ends := giveTrigger_single_refused (c := reloaded ch w) len on idle single outside
    rw [setChan, reportOnce_channels] at ends
    exact ends
  · rintro ⟨on, idle⟩ sequence stop
    obtain ⟨v, offered, ends⟩ := giveTrigger_sequence (c := reloaded ch w) len on idle sequence stop
    exact ⟨v, fun k _ => offered k, ends⟩

end Sys2Proof.Channels
end

section
/-! SUPPORT. What the end of an event leaves of the level and the marks (10 R161, 09 R147), O2, and every step as the end
of an event or a change that the level does not see: O4. -/

namespace Sys2Proof.ResponseLevel
open Sys2Proof Sys2Proof.Machine

/-! ## The level that is formed -/

/-- The greatest severity of a list above a start: no record is above it, and it is the start's or a record's. -/
theorem greatest_of_foldl (l : List FaultRec) (x : Fin 4) :
    x ≤ l.foldl (fun m r => max m r.severity) x ∧ (∀ r ∈ l, r.severity ≤ l.foldl (fun m r => max m r.severity) x)
    ∧ (l.foldl (fun m r => max m r.severity) x = x
      ∨ ∃ r ∈ l, r.severity = l.foldl (fun m r => max m r.severity) x) := by
  induction l generalizing x with
  | nil => exact ⟨le_rfl, nofun, .inl rfl⟩
  | cons q l ih =>
    obtain ⟨start, above, hit⟩ := ih (max x q.severity)
    rw [List.foldl_cons]
    refine ⟨(le_max_left ..).trans start, List.forall_mem_cons.2 ⟨(le_max_right ..).trans start, above⟩, ?_⟩
    rcases hit with e | ⟨r, mem, e⟩
    · rcases max_choice x q.severity with first | second
      · exact .inl (e.trans first)
      · exact .inr ⟨q, List.mem_cons_self, (e.trans second).symm⟩
    · exact .inr ⟨r, List.mem_cons_of_mem _ mem, e⟩

/-- Without the latch the level formed is the greatest severity of the list, 0 for an empty one (10 R161). -/
theorem formed_unlatched {f : Faults} (latch : f.latch = false) :
    (∀ r ∈ f.records, r.severity ≤ f.formed) ∧ (f.formed = 0 ∨ ∃ r ∈ f.records, r.severity = f.formed) := by
  have fold : f.formed = f.records.foldl (fun m r => max m r.severity) 0 := if_neg (by rw [latch]; exact nofun)
  rw [fold]
  exact (greatest_of_foldl f.records 0).2

/-! ## The end of an event -/

theorem finish_marks (s : State) : (finish s).ev = .none := by
  by_cases run : s.power = .running
  · exact (finish_stands s run).2
  · unfold finish; rw [if_neg run]

theorem finish_frame (s : State) :
    finish s = { s with faults := (finish s).faults, gov := (finish s).gov, arms := (finish s).arms,
                        lift := (finish s).lift, spray := (finish s).spray, channels := (finish s).channels,
                        ports := (finish s).ports, choices := (finish s).choices, ev := .none } := by
  have ends : Ends s (finish s) := finish_ends s
  unfold Ends at ends
  rwa [finish_marks] at ends

/-- Settles O2: the level stands at the end of an event, so it is what the list and the latch give. -/
theorem eventEndFormsLevel : Obligations.EventEndFormsLevel := by
  unfold Obligations.EventEndFormsLevel
  refine fun s => ⟨finish_frame s, fun run => ?_, finish_quiet s⟩
  have stands := (finish_stands s run).1
  rw [stands]
  exact ⟨Cutoff.formed_latched, formed_unlatched⟩

/-! ## Every step -/

/-- The level stands and the marks are clear. -/
def Settled (s : State) : Prop := LevelStands s ∧ MarksClear s

theorem finish_settled (s : State) : Settled (finish s) :=
  ⟨fun run => (finish_stands s ((finish_ends s).power.symm.trans run)).1, finish_marks s⟩

/-- Nothing of what the level and the marks depend on differs. -/
def Unseen (s t : State) : Prop :=
  t.power = s.power ∧ t.faults.level = s.faults.level ∧ t.faults.formed = s.faults.formed ∧ t.ev = s.ev

theorem Unseen.settled {s t : State} (h : Unseen s t) (settled : Settled s) : Settled t := by
  obtain ⟨power, level, formed, ev⟩ := h
  obtain ⟨stands, clear⟩ := settled
  exact ⟨fun run => level.trans ((stands (power.symm.trans run)).trans formed.symm), ev.trans clear⟩

theorem losePower_settled {s : State} (h : Settled s) : Settled (losePower s) := by
  refine ⟨nofun, ?_⟩
  have marks (p) : (failedStep p s).ev = s.ev := by
    unfold failedStep
    split
    · rfl
    · unfold failedPage; rfl
  have kept : (losePower s).ev = s.ev := by
    unfold losePower
    dsimp only
    split
    · exact marks _
    · rfl
    · rfl
  exact kept.trans h.2

theorem advance_unseen (n : Nat) (s : State) : Unseen s (advance n s) := by
  cases n <;> exact ⟨rfl, rfl, rfl, rfl⟩

/-- An answer whose next state is settled when the state before is. -/
def Settles (s : State) (a : Answer) : Prop := ∀ t, a = .next t → Settled s → Settled t

namespace Settles

theorem next {s t : State} (h : Settled s → Settled t) : Settles s (.next t) := by rintro _ ⟨⟩; exact h
theorem stay (s : State) : Settles s (.next s) := next id
theorem unseen {s t : State} (h : Unseen s t) : Settles s (.next t) := next h.settled
theorem ends {body : State → State} {s u : State} : Settles s (.next (event body u)) := next fun _ => finish_settled _
theorem ite {s : State} {a b : Answer} {c : Prop} [Decidable c] (h : Settles s a) (k : Settles s b) :
    Settles s (if c then a else b) := by
  split
  · exact h
  · exact k

theorem happens {c} {body : State → State} {s : State} : Settles s (Machine.happens c body s) := ite ends (stay s)
theorem expires {t} {body : State → State} {s : State} : Settles s (Machine.expires t body s) := by
  refine ite ?_ (stay s)
  split
  · exact ends
  · exact stay s

end Settles

theorem restartIfDue_settled {s : State} (h : Settled s) : Settled (restartIfDue s) := by
  unfold restartIfDue
  split
  · exact finish_settled _
  · exact h
theorem sleepIfDue_settled {s : State} (h : Settled s) : Settled (sleepIfDue s) := by
  unfold sleepIfDue enterSleep
  dsimp only
  split_ifs
  · exact finish_settled _
  · exact finish_settled _
  · exact h
theorem operationEvent_settles {t} {body : State → State} {s : State} : Settles s (operationEvent t body s) := by
  refine .ite ?_ (.stay s)
  split
  · exact .next fun _ => sleepIfDue_settled (finish_settled _)
  · exact .stay s

/-- Every command answers the end of an event, or a state that the level does not tell from the one before, or one
without power. -/
theorem exec_settles (i : Instr) (s : State) : Settles s (exec i s) := by
  cases i
  case frameReceived q f => exact .ite .happens fun _ e => nomatch e
  case frameSent q =>
    refine .ite ?_ (.stay s)
    split
    · exact .next fun _ => restartIfDue_settled (finish_settled _)
    · exact .stay s
  case linkLost q => exact .ite (.next fun _ => restartIfDue_settled (finish_settled _)) (.stay s)
  case pulseEdge ch d k => exact .ite (.ite .ends (.unseen (advance_unseen _ s))) (.stay s)
  case cutoffActive => exact .ite (.stay s) (.ite .ends (.unseen ⟨rfl, rfl, rfl, rfl⟩))
  case cutoffInactive => exact .ite (.stay s) (.ite .ends (.unseen ⟨rfl, rfl, rfl, rfl⟩))
  case ignitionShutdown => exact .ite (.ite .ends (.unseen ⟨rfl, rfl, rfl, rfl⟩)) (.stay s)
  case shutdownTimerExpiry =>
    refine .ite ?_ (.stay s)
    split
    · exact .next fun _ => sleepIfDue_settled (finish_settled _)
    · exact .stay s
  case sleepEntry => exact .next sleepIfDue_settled
  case wake => exact .ite .ends (.unseen ⟨rfl, rfl, rfl, rfl⟩)
  case coldStart => exact .ends
  case serviceRestart => exact .next restartIfDue_settled
  case storePageStep b =>
    show Settles s (execStorePageStep b s)
    unfold execStorePageStep
    split
    · exact operationEvent_settles
    · exact .stay s
  case storeCompletion =>
    show Settles s (execStoreCompletion s)
    unfold execStoreCompletion
    split
    · exact .ite operationEvent_settles (.stay s)
    · exact .stay s
  case recallPageRead =>
    show Settles s (execRecallPageRead s)
    unfold execRecallPageRead
    split
    · exact operationEvent_settles
    · exact .stay s
  case recallCompletion =>
    show Settles s (execRecallCompletion s)
    unfold execRecallCompletion
    split
    · exact .ite (.stay s) operationEvent_settles
    · exact .stay s
  case powerLoss => exact .ite (.stay s) (.next losePower_settled)
  case windowTimerExpiry | standstillTimerExpiry | disagreementTimerExpiry | lossTimerExpiry | returnTimerExpiry
      | freshnessTimerExpiry | senderTimerExpiry | silentTimeEnd | governorPeriod | armPeriod | motionTimerExpiry
      | floatTimerExpiry | waitTimerExpiry | allocatorPeriod | sprayPeriod | intervalTimerExpiry | releaseTimerExpiry
      | detectionTimeExpiry | inactivityTimerExpiry => exact .expires
  all_goals exact .happens

theorem idle_settles (s : State) : Settles s (idle s) := by
  refine .ite ?_ (.stay s)
  split
  · next i _ => exact exec_settles i { s with choices := s.choices + 1 }
  · exact .unseen (advance_unseen 1 s)

/-- Settles O4: what a step answers is the end of an event, at which the level stands and the marks are clear, or a
state that the level does not tell from the one before, or one without power. -/
theorem stepKeepsLevel : Obligations.StepKeepsLevel := by
  unfold Obligations.StepKeepsLevel
  intro s t stands clear e
  unfold step at e
  split at e
  · next i rest _ => exact exec_settles i { s with pending := rest } t e ⟨stands, clear⟩
  · exact idle_settles s t e ⟨stands, clear⟩

end Sys2Proof.ResponseLevel
end

section
/-! SUPPORT. The cut-off latch under its line and its release timer (10 R162, R163): O40. -/

namespace Sys2Proof.Cutoff
open Sys2Proof Sys2Proof.Machine

/-- What the weighing of a release asks of the pedal (10 R163). -/
theorem pedalNeutral_iff {s : State} : pedalNeutral s = true ↔
    (s.role .pedal).fresh = false ∨ (s.role .pedal).value.natAbs ≤ s.profile.deadband := by
  unfold pedalNeutral
  rw [Bool.or_eq_true, Bool.not_eq_true', decide_eq_true_eq]

/-- Release is given with the pedal neutral; otherwise the timer runs for another 10 ms (10 R163). -/
theorem weighRelease_judged (s : State) :
    (pedalNeutral s = true → weighRelease s
        = reportEnded .cutoff 0 { s with faults := { s.faults with latch := false, releaseT := none } })
    ∧ (¬pedalNeutral s = true → weighRelease s = { s with faults := { s.faults with releaseT := some 10000 } }) :=
  ⟨fun neutral => if_pos neutral, fun off => if_neg off⟩

section
variable {s : State} (run : s.power = .running)
include run

theorem exec_cutoffActive (inactive : s.cutoffLine = false) :
    exec .cutoffActive s = .next (finish (cutoffActiveBody s.opened)) := by
  change execCutoffActive s = _
  unfold execCutoffActive
  rw [inactive, if_neg nofun, if_pos run, event_eq]

theorem exec_cutoffInactive (active : s.cutoffLine = true) :
    exec .cutoffInactive s = .next (finish (cutoffInactiveBody s.opened)) := by
  change execCutoffInactive s = _
  unfold execCutoffInactive
  rw [active, if_neg nofun, if_pos run, event_eq]

end

theorem exec_cutoff_notRunning {s : State} (stopped : s.power ≠ .running) :
    exec .cutoffActive s = .next { s with cutoffLine := true }
    ∧ exec .cutoffInactive s = .next { s with cutoffLine := false } := by
  have same {b : Bool} (line : s.cutoffLine = b) : (.next s : Answer) = .next { s with cutoffLine := b } := by
    rw [← line]
  constructor
  · change execCutoffActive s = _
    unfold execCutoffActive
    rw [if_neg stopped]
    cases line : s.cutoffLine with
    | true => exact same line
    | false => rfl
  · change execCutoffInactive s = _
    unfold execCutoffInactive
    rw [if_neg stopped]
    cases line : s.cutoffLine with
    | true => rfl
    | false => exact same line

/-- Settles O40: the bodies of the line's events and of the release timer's expiry, case by case. -/
theorem cutoffLatch : Obligations.CutoffLatch := by
  unfold Obligations.CutoffLatch
  intro s
  refine ⟨fun run line latch => ?_, fun run line latch => ?_, fun run line => ?_, fun r run timer => ?_,
    exec_cutoff_notRunning⟩
  · refine .of (exec_cutoffActive run line) ?_
    have body : cutoffActiveBody s.opened = setLatch { s.opened with cutoffLine := true } :=
      if_neg (by rw [show s.opened.faults.latch = false from latch]; exact nofun)
    rw [body]
    exact ⟨rfl, reportBegun_holds ..⟩
  · exact .of (exec_cutoffActive run line) (if_pos latch)
  · refine .of (exec_cutoffInactive run line) ⟨fun latch => ?_, fun latch => ?_⟩
    · exact if_neg (by rw [show s.opened.faults.latch = false from latch]; exact nofun)
    · have body : cutoffInactiveBody s.opened = weighRelease { s.opened with cutoffLine := false } := if_pos latch
      obtain ⟨released, rerun⟩ := weighRelease_judged { s.opened with cutoffLine := false }
      rw [body]
      exact ⟨fun neutral => released (pedalNeutral_iff.2 neutral), fun off => rerun (mt pedalNeutral_iff.1 off)⟩
  · refine .of (expires_of run timer) ?_
    obtain ⟨released, rerun⟩ := weighRelease_judged (s.openedAt r)
    rw [pedalNeutral_iff, openedAt_role, openedAt_profile] at released rerun
    exact ⟨released, rerun⟩

end Sys2Proof.Cutoff
end

section
/-! SUPPORT. The two invariants of the fault list (O10) as rules that survive a report of a begin and a thinning of the
list: an end, an acknowledgement, an announcement (10 R156 to R160, R164). -/

namespace Sys2Proof.FaultList
open Sys2Proof Sys2Proof.Machine

/-! ## Thinning -/

/-- A record under other flags. -/
def Flagged (q r : FaultRec) : Prop := r = { q with latched := r.latched, announced := r.announced }

/-- Of the records only the flags may differ; members of the aggregate's merged set, and records, may be gone. -/
structure Thins (f g : Faults) : Prop where
  places : ∀ (i : Fin 15) (r : FaultRec), g.places[i] = some r →
    ∃ q, f.places[i] = some q ∧ Flagged q r
  aggregate : ∀ a, g.aggregate = some a → ∃ b, f.aggregate = some b
    ∧ a = { b with latched := a.latched, announced := a.announced, merged := a.merged } ∧ a.merged.Sublist b.merged
  next : g.nextOrder = f.nextOrder

section
variable {f g : Faults}

theorem Thins.of_eq (places : g.places = f.places) (aggregate : g.aggregate = f.aggregate)
    (next : g.nextOrder = f.nextOrder) : Thins f g :=
  ⟨fun _ r e => ⟨r, places ▸ e, rfl⟩, fun a e => ⟨a, aggregate ▸ e, rfl, .refl _⟩, next⟩

/-- One place written with its own record under other flags, or emptied. -/
theorem Thins.of_place (i : Fin 15) {o : Option FaultRec} (places : g.places = f.places.set i o)
    (aggregate : g.aggregate = f.aggregate) (next : g.nextOrder = f.nextOrder)
    (own : ∀ r, o = some r → ∃ q, f.places[i] = some q ∧ Flagged q r) : Thins f g := by
  refine ⟨fun j r e => ?_, fun a e => ⟨a, aggregate ▸ e, rfl, .refl _⟩, next⟩
  rcases place_of_set (places ▸ e) with ⟨rfl, here⟩ | ⟨-, there⟩
  · exact own r here
  · exact ⟨r, there, rfl⟩

/-- The end of a condition thins the list (10 R159). -/
theorem reportEnded_thins (k n) (s : State) : Thins s.faults (reportEnded k n s).faults := by
  unfold reportEnded
  dsimp only
  split
  · next i _ =>
    refine .of_place i rfl rfl rfl fun r e => ?_
    obtain ⟨q, here, ended⟩ := Option.bind_eq_some_iff.1 e
    unfold FaultRec.ended at ended
    split at ended <;> cases ended
    exact ⟨q, here, rfl⟩
  · split
    · refine ⟨fun i r e => ⟨r, e, rfl⟩, fun a e => ?_, rfl⟩
      obtain ⟨b, here, rfl⟩ := Option.map_eq_some_iff.1 e
      exact ⟨b, here, rfl, List.erase_sublist⟩
    · exact .of_eq rfl rfl rfl

/-- An acknowledgement thins the list (10 R160). -/
theorem acknowledged_thins (f : Faults) : Thins f f.acknowledged := by
  refine ⟨fun i r e => ?_, fun a e => ⟨a, (Option.filter_eq_some_iff.1 e).1, rfl, .refl _⟩, rfl⟩
  have e : (f.places.map fun o => o.filter fun r => !r.latched)[i] = some r := e
  rw [Fin.getElem_fin, Vector.getElem_map] at e
  exact ⟨r, (Option.filter_eq_some_iff.1 e).1, rfl⟩

/-- An announcement thins the list (09 R144). -/
theorem announce_thins (f : Faults) (o : Nat) : Thins f (f.announce o) := by
  have marked (q : FaultRec) : Flagged q (if q.order = o then { q with announced := true } else q) := by
    split <;> rfl
  refine ⟨fun i r e => ?_, fun a e => ?_, rfl⟩
  · have e : (f.places.map (Option.map _))[i] = some r := e
    rw [Fin.getElem_fin, Vector.getElem_map] at e
    obtain ⟨q, here, rfl⟩ := Option.map_eq_some_iff.1 e
    exact ⟨q, here, marked q⟩
  · obtain ⟨q, here, rfl⟩ := Option.map_eq_some_iff.1 e
    refine ⟨q, here, ?_⟩
    split <;> exact ⟨rfl, .refl _⟩

end

/-! ## Rules of the list -/

/-- A rule of the fault list that the empty list meets and that reports of a begin and thinning keep. -/
structure ListRule (P : Faults → Prop) : Prop where
  empty : P Faults.empty
  thins : ∀ f g, Thins f g → P f → P g
  begun : ∀ k n sev (s : State), k ≠ .faultListFull → P s.faults → P (reportBegun k n sev s).faults

/-! ### One record of a kind and subject -/

/-- Thinning keeps the list within its rules. -/
theorem ListOk.thins {f g : Faults} (h : ListOk f) (thin : Thins f g) : ListOk g := by
  refine ⟨fun a e => ?_, fun i r e => ?_, fun i j r q ei ej kind subject => ?_, fun a e => ?_, fun r mem => ?_⟩
  · obtain ⟨b, here, same, -⟩ := thin.aggregate a e
    rw [same]
    exact h.aggregate b here
  · obtain ⟨q, here, same⟩ := thin.places i r e
    rw [same]
    exact h.general i q here
  · obtain ⟨r', heri, samei⟩ := thin.places i r ei
    obtain ⟨q', herj, samej⟩ := thin.places j q ej
    rw [samei, samej] at kind subject
    exact h.unique i j r' q' heri herj kind subject
  · obtain ⟨b, here, -, sub⟩ := thin.aggregate a e
    obtain ⟨nodup, apart⟩ := h.merged b here
    refine ⟨nodup.sublist sub, fun k n mem => find_none_iff.2 fun i r ei is => ?_⟩
    obtain ⟨q, heri, same⟩ := thin.places i r ei
    rw [same] at is
    exact find_none_iff.1 (apart k n (sub.subset mem)) i q heri is
  · rw [thin.next]
    rcases mem_records.1 mem with ⟨i, e⟩ | e
    · obtain ⟨q, here, same⟩ := thin.places i r e
      rw [same]
      exact h.orders q (mem_records.2 (.inl ⟨i, here⟩))
    · obtain ⟨b, here, same, -⟩ := thin.aggregate r e
      rw [same]
      exact h.orders b (mem_records.2 (.inr here))

theorem empty_places (i : Fin 15) : Faults.empty.places[i] = none := by
  show (Vector.replicate 15 none)[i.val] = none
  exact Vector.getElem_replicate _

theorem not_mem_empty (r : FaultRec) : r ∉ Faults.empty.records := by
  rw [mem_records]
  rintro (⟨i, e⟩ | e)
  · exact nomatch (empty_places i).symm.trans e
  · exact nomatch e

/-- The rules of O10's first part: one record of a kind and subject. -/
theorem listOk_rule : ListRule ListOk where
  empty := ⟨(nofun), fun i _ e => (nomatch (empty_places i).symm.trans e),
    fun i _ _ _ e => (nomatch (empty_places i).symm.trans e), (nofun), fun r mem => absurd mem (not_mem_empty r)⟩
  thins _ _ thin h := h.thins thin
  begun _ _ _ _ general h := reportBegun_ok _ general h

/-! ### One record of an entry order -/

/-- What a place of the list holds; the aggregate's stands beside the general ones. -/
def slot (f : Faults) : Option (Fin 15) → Option FaultRec
  | some i => f.places[i]
  | none => f.aggregate

/-- The places of the list, the aggregate's last. -/
def everyPlace : List (Option (Fin 15)) := (List.finRange 15).map some ++ [none]

theorem mem_everyPlace (x : Option (Fin 15)) : x ∈ everyPlace := by
  cases x with
  | none => exact List.mem_append_right _ (List.mem_singleton_self _)
  | some i => exact List.mem_append_left _ (List.mem_map_of_mem (List.mem_finRange i))

theorem everyPlace_nodup : everyPlace.Nodup := by decide

theorem records_eq_slots (f : Faults) : f.records = everyPlace.filterMap (slot f) := by
  have places : f.places.toList = (List.finRange 15).map fun i => f.places[i] :=
    List.ext_getElem (by simp) fun i _ _ => by simp
  unfold Faults.records everyPlace
  rw [List.filterMap_append, List.filterMap_map, places, List.filterMap_map]
  cases e : f.aggregate <;> simp [slot, e, Function.comp_def]

theorem mem_records_iff_slot {f : Faults} {r : FaultRec} : r ∈ f.records ↔ ∃ x, slot f x = some r := by
  rw [mem_records, Option.exists]
  exact or_comm

/-- No two records have one entry order, and every order has been given. -/
structure OrdersOk (f : Faults) : Prop where
  distinct : ∀ x y r q, slot f x = some r → slot f y = some q → r.order = q.order → x = y
  given : ∀ x r, slot f x = some r → r.order < f.nextOrder

theorem faultOrdersOk_iff {s : State} : FaultOrdersOk s ↔ OrdersOk s.faults := by
  unfold FaultOrdersOk
  rw [records_eq_slots, List.pairwise_filterMap]
  constructor
  · rintro ⟨pairwise, given⟩
    have symm : Std.Symm fun x y => ∀ r, slot s.faults x = some r → ∀ q, slot s.faults y = some q → r.order ≠ q.order :=
      ⟨fun x y h q hq r hr => (h r hr q hq).symm⟩
    refine ⟨fun x y r q hx hy same => ?_, fun x r hx => given r (List.mem_filterMap.2 ⟨x, mem_everyPlace x, hx⟩)⟩
    by_contra ne
    exact pairwise.forall (mem_everyPlace x) (mem_everyPlace y) ne r hx q hy same
  · rintro ⟨distinct, given⟩
    refine ⟨everyPlace_nodup.pairwise_of_forall_ne fun x _ y _ ne r hx q hy same => ne (distinct x y r q hx hy same),
      fun r mem => ?_⟩
    obtain ⟨x, -, hx⟩ := List.mem_filterMap.1 mem
    exact given x r hx

section
variable {f g : Faults}

/-- The orders stay apart when every record has the order that its place held, but for one place, which may hold the
next order to be given. -/
theorem OrdersOk.write (h : OrdersOk f) (x : Option (Fin 15)) (next : f.nextOrder ≤ g.nextOrder)
    (held : ∀ y r, slot g y = some r → (∃ q, slot f y = some q ∧ r.order = q.order)
      ∨ y = x ∧ r.order = f.nextOrder ∧ f.nextOrder < g.nextOrder) : OrdersOk g := by
  refine ⟨fun y z r q hy hz same => ?_, fun y r hy => ?_⟩
  · rcases held y r hy with ⟨r', hy', er⟩ | ⟨rfl, new, -⟩ <;> rcases held z q hz with ⟨q', hz', eq⟩ | ⟨rfl, new', -⟩
    · exact h.distinct y z r' q' hy' hz' (er.symm.trans (same.trans eq))
    · have := h.given y r' hy'
      omega
    · have := h.given z q' hz'
      omega
    · rfl
  · rcases held y r hy with ⟨q, hy', e⟩ | ⟨-, new, lt⟩
    · have := h.given y q hy'
      omega
    · omega

theorem Thins.held (thin : Thins f g) (y : Option (Fin 15)) (r : FaultRec) (e : slot g y = some r) :
    ∃ q, slot f y = some q ∧ r.order = q.order := by
  cases y with
  | some i =>
    obtain ⟨q, here, same⟩ := thin.places i r e
    exact ⟨q, here, by rw [same]⟩
  | none =>
    obtain ⟨b, here, same, -⟩ := thin.aggregate r e
    exact ⟨b, here, by rw [same]⟩

theorem OrdersOk.thins (h : OrdersOk f) (thin : Thins f g) : OrdersOk g :=
  h.write none thin.next.ge fun y r e => .inl (thin.held y r e)

/-- A general place may be written with a record of its own order or of the next. -/
theorem OrdersOk.setPlace (h : OrdersOk f) {i : Fin 15} {q : FaultRec} (places : g.places = f.places.set i (some q))
    (aggregate : g.aggregate = f.aggregate) (next : f.nextOrder ≤ g.nextOrder)
    (order : (∃ r, f.places[i] = some r ∧ q.order = r.order) ∨ q.order = f.nextOrder ∧ f.nextOrder < g.nextOrder) :
    OrdersOk g := by
  refine h.write (some i) next fun y r e => ?_
  cases y with
  | none =>
    have there : f.aggregate = some r := aggregate ▸ e
    exact .inl ⟨r, there, rfl⟩
  | some j =>
    have e : g.places[j] = some r := e
    rcases place_of_set (places ▸ e) with ⟨rfl, here⟩ | ⟨-, there⟩
    · cases here
      exact order.imp id fun new => ⟨rfl, new⟩
    · exact .inl ⟨r, there, rfl⟩

/-- The aggregate may be written with a record of its own order or of the next. -/
theorem OrdersOk.setAggregate (h : OrdersOk f) {a : FaultRec} (places : g.places = f.places)
    (aggregate : g.aggregate = some a) (next : f.nextOrder ≤ g.nextOrder)
    (order : (∃ b, f.aggregate = some b ∧ a.order = b.order) ∨ a.order = f.nextOrder ∧ f.nextOrder < g.nextOrder) :
    OrdersOk g := by
  refine h.write none next fun y r e => ?_
  cases y with
  | none =>
    cases aggregate.symm.trans e
    exact order.imp id fun new => ⟨rfl, new⟩
  | some j =>
    have there : f.places[j] = some r := places ▸ e
    exact .inl ⟨r, there, rfl⟩

end

section
variable {k : Kind} {n : Nat} {s : State}

theorem placeRecord_orders (i sev) (h : OrdersOk s.faults) : OrdersOk (placeRecord i k n sev s).faults :=
  h.setPlace (i := i) (q := newRecord s k n sev) rfl rfl (Nat.le_succ _) (.inr ⟨rfl, Nat.lt_succ_self _⟩)

theorem mergeReport_orders (sev counted) (h : OrdersOk s.faults) : OrdersOk (mergeReport k n sev counted s).faults := by
  unfold mergeReport
  split
  · exact h.setAggregate (a := firstAggregate s k n sev) rfl rfl (Nat.le_succ _) (.inr ⟨rfl, Nat.lt_succ_self _⟩)
  · next a here =>
    rw [markFaultChangeIf_faults]
    exact h.setAggregate (a := a.join k n counted sev) rfl rfl le_rfl (.inl ⟨a, here, rfl⟩)

/-- A report of a begin gives a new record the next order, and leaves a known one its own (10 R156, R157). -/
theorem reportBegun_orders (sev) (h : OrdersOk s.faults) : OrdersOk (reportBegun k n sev s).faults := by
  have settled : OrdersOk (s.faults.settled k n) := h.thins (.of_eq rfl rfl rfl)
  unfold reportBegun
  dsimp only
  split
  · next i found =>
    obtain ⟨r, here, -⟩ := find_some found
    rw [here]
    dsimp only
    rw [markFaultChangeIf_faults]
    exact settled.setPlace (i := i) rfl rfl le_rfl (.inl ⟨r, here, rfl⟩)
  · split
    · exact mergeReport_orders _ _ settled
    · unfold enterRecord
      split
      · exact placeRecord_orders _ _ settled
      · split
        · exact placeRecord_orders (s := { s with faults := (s.faults.settled k n).settled _ _ }) _ _
            (settled.thins (.of_eq rfl rfl rfl))
        · exact mergeReport_orders _ _ settled

end

/-- The rule of O10's second part: one record of an entry order. -/
theorem ordersOk_rule : ListRule OrdersOk where
  empty := by
    have vacant (x) : slot Faults.empty x = none := by
      cases x with
      | none => rfl
      | some i => exact empty_places i
    exact ⟨fun x _ _ _ e => (nomatch (vacant x).symm.trans e), fun x _ e => (nomatch (vacant x).symm.trans e)⟩
  thins _ _ thin h := h.thins thin
  begun _ _ _ _ _ h := reportBegun_orders _ h

end Sys2Proof.FaultList
end

section
/-! SUPPORT. A rule of the fault list through the operations of the blocks: what they do to the list is begins, ends,
announcements and acknowledgements, one after another. -/

namespace Sys2Proof.FaultList
open Sys2Proof Sys2Proof.Machine

/-! ## Operations that leave the supervisor -/

section
variable (s : State)

theorem recordLeft_faults (r) : (recordLeft s r).faults = s.faults := by unfold recordLeft; split <;> rfl
theorem restartReplyLeft_faults (q r) : (restartReplyLeft q r s).faults = s.faults := by
  unfold restartReplyLeft; split <;> rfl
theorem countReply_faults : (countReply s).faults = s.faults := by unfold countReply; split <;> rfl
theorem offerReply_faults : (offerReply s).faults = s.faults := by
  have held : (holdReply s).faults = s.faults := by unfold holdReply; split <;> rfl
  have placed : (placeReply s).faults = s.faults := by unfold placeReply; split <;> rfl
  exact Travel.field_ite rfl (Travel.field_ite (countReply_faults s) (Travel.field_ite held placed))
theorem offerReplies_faults : (offerReplies s).faults = s.faults :=
  Travel.field_ite (offerReply_faults s) ((offerReply_faults _).trans (offerReply_faults s))
theorem makeReply_faults (r) : (makeReply r s).faults = s.faults := Travel.field_ite rfl (offerReply_faults _)
theorem answer_faults (c t st d) : (answer c t st d s).faults = s.faults := makeReply_faults _ _
theorem deferredReply_faults (st) : (deferredReply st s).faults = s.faults := by
  unfold deferredReply
  split
  · rfl
  · exact makeReply_faults _ _
theorem readItem_faults (c i k) : (readItem c i k s).2.2.faults = s.faults := by
  unfold readItem readKind
  split
  · split
    · split
      · rfl
      · split
        · split <;> rfl
        · rfl
    · rfl
  · rfl
theorem stageItem_faults (o d) : (stageItem o d s).2.faults = s.faults := by unfold stageItem; split <;> rfl
theorem failedStep_faults (p) : (failedStep p s).faults = s.faults := by
  unfold failedStep
  split
  · rfl
  · unfold failedPage; rfl
theorem losePower_faults : (losePower s).faults = s.faults := by
  unfold losePower
  dsimp only
  split
  · exact failedStep_faults s _
  · rfl
  · rfl

end

namespace ListRule
variable {P : Faults → Prop}

theorem ite {c : Prop} [Decidable c] {t u : State} (h : P t.faults) (k : P u.faults) : P (if c then t else u).faults :=
  LiftCircuit.holds_ite (P := fun s => P s.faults) h k
theorem foldl {α : Type} {f : State → α → State} (step : ∀ s a, P s.faults → P (f s a).faults) (l : List α) {s : State}
    (h : P s.faults) : P (l.foldl f s).faults := by
  induction l generalizing s with
  | nil => exact h
  | cons a l ih => exact ih (step s a h)

variable (rule : ListRule P) {s : State}
include rule

theorem of_eq {f g : Faults} (h : P f) (places : g.places = f.places) (aggregate : g.aggregate = f.aggregate)
    (next : g.nextOrder = f.nextOrder) : P g := rule.thins f g (.of_eq places aggregate next) h

/-! ## Reports, the level, acknowledgements (10) -/

theorem after_ended (k n) (h : P s.faults) : P (reportEnded k n s).faults :=
  rule.thins _ _ (reportEnded_thins k n s) h
theorem after_endedIf (b k n) (h : P s.faults) : P (reportEndedIf b k n s).faults := ite (rule.after_ended k n h) h
theorem after_enterHeld (h : P s.faults) : P (enterHeld s).faults := rule.after_endedIf _ _ _ h
theorem after_freezeArm (order a) (h : P s.faults) : P (freezeArm order s a).faults := ite (rule.after_ended _ _ h) h
theorem after_publish (l) (h : P s.faults) : P (publish l s).faults := by
  have leveled : P ({ s.faults with level := l } : Faults) := rule.of_eq h rfl rfl rfl
  have frozen {u : State} (hu : P u.faults) : P (freezeCircuit u).faults :=
    foldl (fun _ a h => rule.after_freezeArm _ a h) allArms hu
  have acted : P (if l = 3 then
      freezeCircuit (enterHeld { markFaultChange { s with faults.level := l } with gov.lock := true })
      else rejoinFrozen (markFaultChange { s with faults.level := l })).faults :=
    ite (frozen (rule.after_enterHeld leveled)) (by rw [rejoinFrozen_faults]; exact leveled)
  exact ite (by rw [closeBanks_faults]; exact acted) acted
theorem after_formLevel (h : P s.faults) : P (formLevel s).faults := by
  have once {u : State} (hu : P u.faults) : P (formOnce u).faults := ite hu (rule.after_publish _ hu)
  exact once (once h)
theorem after_acknowledge (h : P s.faults) : P (acknowledge s).faults := by
  rw [Signals.acknowledge_faults]
  exact rule.thins _ _ (acknowledged_thins _) h
theorem after_weighAck (h : P s.faults) : P (weighAck s).faults := by
  unfold weighAck
  exact ite (rule.after_acknowledge h) h

/-! ## Sends and the end of an event (09) -/

theorem sends : LiftCircuit.SendsKeep fun s => P s.faults :=
  ⟨fun _ _ _ h => h, fun _ _ _ h => h, fun _ h => h, fun s o h => rule.thins _ _ (announce_thins s.faults o) h,
    fun _ s h => rule.after_ended _ _ (rule.begun _ _ _ s nofun h)⟩

theorem after_giveTrigger (ch) (h : P s.faults) : P (giveTrigger ch s).faults := rule.sends.giveTrigger ch h
theorem after_completeIfDone (ch) (h : P s.faults) : P (completeIfDone ch s).faults :=
  ite (rule.sends.completeWith (fun ch _ => rule.sends.startSend _ ch) ch h) h
theorem after_continueSend (ch) (h : P s.faults) : P (continueSend ch s).faults :=
  ite (rule.sends.offerRun _ ch h) h
theorem after_completeAll (h : P s.faults) : P (completeAll s).faults :=
  foldl (fun _ ch h => rule.after_formLevel (rule.after_completeIfDone ch h)) _ (rule.after_formLevel h)
theorem after_giveTriggers (h : P s.faults) : P (giveTriggers s).faults :=
  foldl (fun _ ch h => rule.after_formLevel (rule.after_giveTrigger ch h)) _ h
theorem after_finish (h : P s.faults) : P (finish s).faults := by
  have round {u : State} (hu : P u.faults) : P (giveTriggers (formLevel u)).faults :=
    rule.after_giveTriggers (rule.after_formLevel hu)
  have rounds := rule.after_formLevel (round (round (round h)))
  have cleared (u : State) (hu : P u.faults) : P ({ u with ev := .none } : State).faults := hu
  unfold finish
  split
  · exact cleared _ rounds
  · exact h
theorem after_event {body : State → State} (step : ∀ u : State, P u.faults → P (body u).faults) (h : P s.faults) :
    P (event body s).faults := rule.after_finish (step s.opened h)
theorem after_advance (n) (h : P s.faults) : P (advance n s).faults := by
  cases n with
  | zero => exact h
  | succ n => exact rule.of_eq h rfl rfl rfl

/-! ## Signals and the frame path (02, 01) -/

theorem after_decideStatus (n) (h : P s.faults) : P (decideStatus n s).faults := by
  refine ite (rule.after_endedIf _ _ _ h) ?_
  split
  · exact rule.begun _ _ _ _ nofun h
  · exact h
  · exact h
theorem after_recompute (n) (h : P s.faults) : P (recompute n s).faults := by
  by_cases none : s.tables.slots[n].vote = .none
  · rw [Signals.recompute_none none]; exact h
  · have voted : P (Signals.revote n s).faults := ite (rule.after_decideStatus n h) (rule.after_decideStatus n h)
    rw [Signals.recompute_eq none]
    exact ite (ite (rule.begun _ _ _ _ nofun voted) (rule.after_ended _ _ voted)) voted
theorem after_freshnessExpired (n) (h : P s.faults) : P (freshnessExpired n s).faults :=
  rule.after_weighAck (rule.begun _ _ _ _ nofun h)
theorem after_senderExpired (i) (h : P s.faults) : P (senderExpired i s).faults := by
  unfold senderExpired
  dsimp only
  split
  · exact h
  · exact rule.after_weighAck (rule.after_recompute _ h)
theorem after_removePlace (i) (h : P s.faults) : P (removePlace i s).faults := by
  unfold removePlace
  split
  · exact h
  · exact rule.after_recompute _ (rule.after_ended _ _ h)
theorem after_removeSenders (p r) (h : P s.faults) : P (removeSenders p r s).faults :=
  ite h (foldl (fun _ n h => rule.after_recompute n h) _ (rule.after_ended _ _ h))
theorem after_presentSender (q f e n) (h : P s.faults) : P (presentSender q f e n s).2.faults := by
  unfold presentSender
  split
  · split
    · exact h
    · exact rule.after_removePlace _ h
  · split
    · exact h
    · exact rule.begun _ _ _ _ nofun h
theorem after_applyDirect (e d) (h : P s.faults) : P (applyDirect e d s).faults := by
  have picked (u : State) (p) (h : P u.faults) : P (applyDirectPick d u p).faults := by
    unfold applyDirectPick
    split
    · exact h
    · refine ite ?_ h
      split
      · exact h
      · exact ite h h
  have refreshed (u : State) (p) (h : P u.faults) : P (refreshByPick d u p).faults :=
    ite (rule.after_endedIf _ _ _ h) h
  exact rule.after_weighAck (foldl refreshed _ (foldl picked _ h))
theorem after_applySender (i e d) (h : P s.faults) : P (applySender i e d s).faults := by
  have token (u : State) (p) (h : P u.faults) : P (applySenderToken i d u p).faults := by
    unfold applySenderToken; split <;> exact h
  unfold applySender
  split
  · exact h
  · split
    · exact h
    · exact rule.after_recompute _ (foldl token _ h)
theorem after_forward (q f) (h : P s.faults) : P (forward q f s).faults :=
  ite h (ite (rule.begun _ _ _ _ nofun h) (rule.after_ended _ _ h))
theorem after_forwardAction (e q f) (h : P s.faults) : P (forwardAction e q f s).faults := by
  unfold forwardAction
  split
  case h_1 | h_2 => exact rule.after_forward _ _ h
  case h_3 | h_4 => exact h
  case h_5 => split <;> exact rule.after_forward _ _ h
theorem after_carryOut (i q f) (h : P s.faults) : P (carryOut i q f s).faults := by
  unfold carryOut
  dsimp only
  split
  · exact rule.after_forwardAction _ _ _ (rule.after_applyDirect _ _ h)
  · split
    · exact rule.after_forwardAction _ _ _ h
    · next v _ =>
      have presented := rule.after_presentSender q f i v.slot h
      split
      · next heq => rw [heq] at presented; exact presented
      · next heq =>
        rw [heq] at presented
        exact rule.after_forwardAction _ _ _ (rule.after_weighAck (rule.after_applySender _ _ _ presented))
theorem after_framePath (q f) (h : P s.faults) : P (framePath q f s).faults := by
  unfold framePath
  split
  · exact rule.after_carryOut _ _ _ h
  · exact ite (rule.after_forward _ _ h) h

/-! ## Freed places and the link (01) -/

theorem after_handPlace (q) (h : P s.faults) : P (handPlace q s).faults := by
  refine ite ?_ h
  split
  · exact h
  · dsimp only
    split
    · exact rule.after_continueSend _ (rule.sends.placeChannelFrame _ _ _ h)
    · rw [offerReplies_faults]; exact h
theorem after_releaseHolder (x) (h : P s.faults) : P (releaseHolder s x).faults := by
  unfold releaseHolder
  split
  · exact rule.after_continueSend _ h
  · rw [countReply_faults, countReply_faults]; exact h
omit rule in
theorem after_leaving (q r) (h : P s.faults) : P (restartReplyLeft q r (recordLeft s r)).faults := by
  rw [restartReplyLeft_faults, recordLeft_faults]; exact h
theorem after_frameSentBody (q r) (h : P s.faults) : P (frameSentBody q r s).faults :=
  rule.after_completeAll (rule.after_handPlace q (after_leaving q r h))
theorem after_linkLostBody (q) (h : P s.faults) : P (linkLostBody q s).faults := by
  have emptied := foldl (f := fun s r => restartReplyLeft q r (recordLeft s r)) (fun _ r h => after_leaving q r h)
    (s.ports.get q).queue
    (s := s.onPort q fun p => { p with on := false, queue := [], offered := none, holders := [] }) h
  exact rule.after_completeAll <| foldl (fun _ x h => rule.after_formLevel (rule.after_releaseHolder x h)) _ <|
    rule.after_formLevel (rule.begun _ _ _ _ nofun emptied)

/-! ## Speed capture and governor (03, 05) -/

theorem after_captureUpdate (h : P s.faults) : P (captureUpdate s).faults :=
  SpeedCapture.captureUpdate_faults P s (fun k n _ _ h => rule.after_ended k n h)
    (fun _ _ u h => rule.begun _ _ _ u nofun h) h
theorem after_edge (ch d c) (h : P s.faults) : P (edge ch d c s).faults := by
  unfold edge
  dsimp only
  split
  · exact h
  · split
    · exact h
    · exact rule.after_captureUpdate h
theorem after_resetCapture (h : P s.faults) : P (resetCapture s).faults :=
  rule.after_captureUpdate (rule.after_ended _ _ (rule.after_ended _ _ (rule.after_ended _ _ h)))

theorem after_enterNeutral (h : P s.faults) : P (enterNeutral s).faults := rule.after_endedIf _ _ _ h
theorem after_beginStop (i) (h : P s.faults) : P (beginStop i s).faults := ite (rule.begun _ _ _ _ nofun h) h
theorem after_weighState (i) (h : P s.faults) : P (weighState i s).faults := by
  refine ite (rule.after_enterHeld h) ?_
  split
  · exact ite (rule.after_enterHeld h) (ite h (rule.after_enterNeutral h))
  · exact ite (rule.after_beginStop i h) h
  · exact ite (rule.after_beginStop i h) h
  · exact h
  · exact ite (rule.after_enterNeutral h) (rule.after_enterHeld h)
theorem after_endStage (i) (h : P s.faults) : P (endStage i s).faults := by
  refine ite ?_ h
  split
  · exact ite (rule.after_enterHeld h) (rule.after_enterNeutral h)
  · exact ite (rule.after_enterNeutral h) h
  · exact ite (rule.after_enterNeutral h) h
  · exact h
  · exact h
theorem after_overspeedWatch (i) (h : P s.faults) : P (overspeedWatch i s).faults :=
  ite (ite (rule.begun _ _ _ _ nofun h) h) (rule.after_endedIf _ _ _ h)
theorem after_governorBody (h : P s.faults) : P (governorBody s).faults := by
  let started : State := onGov (fun g => { g with timer := msTimer Config.governorPeriodMs }) s
  have prepared : P (selectorStage started).faults := by rw [Travel.selectorStage_faults]; exact h
  have computed (i) (u : State) (h : P u.faults) : P (if u.gov.state.computes then onGov (compute i) u else u).faults :=
    ite h h
  have watched (i) (u : State) (h : P u.faults) : P (engineWatch i u).faults := ite (rule.after_ended _ _ h) h
  exact rule.after_overspeedWatch _ <| watched _ _ <| rule.after_endStage _ <| computed _ _ <|
    rule.after_weighState _ prepared

/-! ## Arms (06) -/

theorem after_leaveQueue (a) (h : P s.faults) : P (leaveQueue a s).faults := rule.after_ended _ _ h
theorem after_turnUp (a) (h : P s.faults) : P (turnUp a s).faults := by
  unfold turnUp
  split
  · exact rule.after_leaveQueue a h
  all_goals exact ite (rule.after_leaveQueue a h) h
theorem after_turnDown (a) (h : P s.faults) : P (turnDown a s).faults := by
  unfold turnDown
  split
  · exact rule.after_leaveQueue a h
  all_goals exact ite (rule.after_leaveQueue a h) h
theorem after_transition (a) (h : P s.faults) : P (transition a s).faults := by
  unfold transition
  dsimp only
  split
  · exact ite (ite h (ite h h)) h
  · exact ite (ite h h) h
  · exact ite h (rule.after_turnUp a h)
  · exact ite (rule.after_turnDown a h) h
  · exact ite h h
  · exact ite h h
  · exact ite h (ite h h)
  · exact ite h (ite h h)
  · rw [rejoinArm_faults]; exact h
  · exact h
theorem after_armStage (a) (h : P s.faults) : P (armStage s a).faults :=
  ite (rule.after_transition a (ite (rule.after_ended _ _ h) h)) h
theorem after_weighGrant (h : P s.faults) : P (weighGrant s).faults := by
  unfold weighGrant
  split
  · exact h
  · exact ite (rule.after_leaveQueue _ h) h
theorem after_armPeriodBody (h : P s.faults) : P (armPeriodBody s).faults := by
  rw [LiftCircuit.armPeriodBody_faults]
  exact rule.after_weighGrant (foldl (fun _ a h => rule.after_armStage a h) allArms h)
theorem after_motionExpired (a) (h : P s.faults) : P (motionExpired a s).faults := by
  refine rule.after_weighGrant ?_
  rw [banksFollowArms, closeBanks_faults]
  exact rule.after_ended _ _ (rule.begun _ _ _ _ nofun h)
theorem after_actOnFitted (old) (h : P s.faults) : P (actOnFitted old s).faults := by
  rw [actOnFitted, banksFollowArms, closeBanks_faults]
  refine foldl (fun u a h => ?_) allArms h
  split
  · exact rule.after_ended _ _ (rule.after_ended _ _ (rule.after_leaveQueue a h))
  all_goals exact h
theorem after_startShutdown (h : P s.faults) : P (startShutdown s).faults := by
  have frozen (order) (u : State) (a) (h : P u.faults) : P (shutdownFreezeArm order u a).faults :=
    ite (rule.after_ended _ _ (rule.after_ended _ _ h)) h
  have held : P (enterHeld { s with shutdown := { hold := true, timer := msTimer Config.shutdownMs } }).faults :=
    rule.after_enterHeld h
  rw [startShutdown, closeBanks_faults]
  exact foldl (frozen _) allArms held

/-! ## Doser, cut-off (08, 10) -/

theorem after_sprayBody (h : P s.faults) : P (sprayBody s).faults := by
  have low {u : State} (h : P u.faults) : P (lowCheck u).faults :=
    ite (ite (ite (rule.begun _ _ _ _ nofun h) h) (ite (rule.after_endedIf _ _ _ h) h)) h
  have dry {u : State} (h : P u.faults) : P (dryCheck u).faults :=
    ite (rule.begun _ _ _ _ nofun h) (rule.after_endedIf _ _ _ h)
  have checks : (sprayBody s).faults
      = (dryCheck (lowCheck (onSpray (fun p => { p with timer := msTimer Config.sprayPeriodMs }) s))).faults := by
    unfold sprayBody
    dsimp only
    generalize dryCheck _ = u
    rfl
  have started : P (onSpray (fun p => { p with timer := msTimer Config.sprayPeriodMs }) s).faults := h
  rw [checks]
  exact dry (low started)
theorem after_weighRelease (h : P s.faults) : P (weighRelease s).faults :=
  ite (rule.after_ended _ _ (rule.of_eq h rfl rfl rfl)) (rule.of_eq h rfl rfl rfl)
theorem after_cutoffActiveBody (h : P s.faults) : P (cutoffActiveBody s).faults :=
  ite (rule.of_eq h rfl rfl rfl) (rule.begun _ _ _ _ nofun (rule.of_eq h rfl rfl rfl))
theorem after_cutoffInactiveBody (h : P s.faults) : P (cutoffInactiveBody s).faults :=
  ite (rule.after_weighRelease h) h

/-! ## Restarts and SLEEP (12) -/

theorem after_restartBlocks (h : P s.faults) : P (restartBlocks s).faults := by
  have cutoff {u : State} (h : P u.faults) : P (judgeCutoff u).faults :=
    ite (rule.begun _ _ _ _ nofun (rule.of_eq h rfl rfl rfl)) (rule.of_eq h rfl rfl rfl)
  have store {u : State} (h : P u.faults) : P (judgeStore u).faults := ite (rule.begun _ _ _ _ nofun h) h
  have ended {u : State} (h : P u.faults) : P (endUnobserved u).faults :=
    foldl (fun _ _ h => rule.after_ended _ _ h) _ h
  have formed := rule.after_formLevel (ended (store (cutoff
    (rule.after_captureUpdate (s := takeAckReading (setBlocks s)) h))))
  exact ite formed (rule.after_startShutdown formed)
/-- A cold start begins with the empty list. -/
theorem after_coldStart (s : State) : P (coldStart s).faults := rule.after_restartBlocks rule.empty
theorem after_warmRestart (c) (h : P s.faults) : P (warmRestart c s).faults :=
  rule.after_restartBlocks (rule.of_eq h rfl rfl rfl)
theorem after_restartIfDue (h : P s.faults) : P (restartIfDue s).faults :=
  ite (rule.after_event (fun _ h => rule.after_warmRestart _ h) h) h
theorem after_sleepIfDue (h : P s.faults) : P (sleepIfDue s).faults := by
  have slept : P (event sleepBody s).faults := rule.after_event (fun _ h => rule.of_eq h rfl rfl rfl) h
  exact ite (ite (rule.after_event (fun _ h => rule.after_warmRestart _ h) slept) slept) h

end ListRule

end Sys2Proof.FaultList
end

section
/-! SUPPORT. A rule of the fault list under the table store, requests and every command: O10. -/

namespace Sys2Proof.FaultList
open Sys2Proof Sys2Proof.Machine

namespace ListRule
variable {P : Faults → Prop}

variable (rule : ListRule P) {s : State}

/-! ## Replies (11) -/

theorem after_answer (c t st d) (h : P s.faults) : P (answer c t st d s).faults := by rw [answer_faults]; exact h
theorem after_deferredReply (st) (h : P s.faults) : P (deferredReply st s).faults := by
  rw [deferredReply_faults]; exact h

include rule

/-! ## The table store (12) -/

theorem after_storeDone (r) (h : P s.faults) : P (storeDone r s).faults :=
  after_deferredReply _ (rule.after_ended _ _ h)
theorem after_storeStep (b r) (h : P s.faults) : P (storeStep b r s).faults := by
  have failed : P (endOperation (failedStep r.page s)).faults := by
    show P (failedStep r.page s).faults
    rw [failedStep_faults]; exact h
  exact ite (ite (rule.after_storeDone r h) h) (after_deferredReply _ failed)
theorem after_replaceTables (t) (h : P s.faults) : P (replaceTables t s).faults := by
  have removed := rule.after_removeSenders (fun _ => true) (fun _ => true) (s := { s with tables := t }) h
  have slot (u : State) (n) (h : P u.faults) : P (Signals.recallSlot u n).faults :=
    rule.after_ended _ _ (rule.after_ended _ _ h)
  have slots {u : State} (h : P u.faults) : P (recallSlots u).faults := foldl slot _ h
  have channels {u : State} (h : P u.faults) : P (recallChannels u).faults := h
  exact rule.after_weighAck (rule.after_resetCapture (rule.after_actOnFitted _ (channels (slots removed))))
theorem after_recallDone (sum) (h : P s.faults) : P (recallDone sum s).faults := by
  unfold recallDone
  dsimp only
  split
  · exact after_deferredReply _ (rule.after_replaceTables _ h)
  · exact after_deferredReply _ h
theorem after_startRecall (h : P s.faults) : P (startRecall s).faults := by
  unfold startRecall
  split
  · exact after_deferredReply _ h
  · exact ite (rule.after_recallDone _ h) h
theorem after_readDone (r) (h : P s.faults) : P (readDone r s).faults := ite h (rule.after_recallDone _ h)

/-! ## Requests (11) -/

omit rule in
theorem after_commitWith {α : Type} (n index len : Nat) (decode : List Byte → Option α)
    (accept : Fin n → α → State → Judged) (accepted : ∀ i x, P (accept i x s).2.faults) (h : P s.faults) :
    P (commitWith n index len decode accept s).2.faults := by
  rcases Signals.commitWith_cases n index len decode accept s with e | ⟨i, x, -, e⟩
  · rw [e]; exact h
  · rw [e]; exact accepted i x
theorem after_acceptMatch (i e) (h : P s.faults) : P (acceptMatch i e s).2.faults := by
  unfold acceptMatch
  split
  · exact rule.after_weighAck (rule.after_removeSenders _ _ h)
  · exact h
theorem after_acceptSlot (i c) (h : P s.faults) : P (acceptSlot i c s).2.faults := by
  unfold acceptSlot
  split
  · have removed := rule.after_removeSenders (fun r => r.slot == i) (fun n => n == i)
      (s := { s with tables := { s.tables with slots := s.tables.slots.set i c } }) h
    exact rule.after_weighAck (rule.after_ended _ _ (rule.after_ended _ _ removed))
  · exact h
theorem after_commitItem (code index) (h : P s.faults) : P (commitItem code index s).2.faults := by
  unfold commitItem
  split
  case h_1 => exact after_commitWith _ _ _ _ _ (fun _ _ => rule.after_acceptMatch _ _ h) h
  case h_2 => exact after_commitWith _ _ _ _ _ (fun _ _ => rule.after_acceptSlot _ _ h) h
  case h_3 => exact after_commitWith _ _ _ _ _ (fun _ _ => rule.after_weighAck h) h
  case h_6 => exact after_commitWith _ _ _ _ _ (fun _ _ => rule.after_actOnFitted _ h) h
  case h_7 | h_8 =>
    refine after_commitWith _ _ _ _ _ (fun i x => ?_) h
    dsimp only
    split <;> exact h
  case h_10 => exact after_commitWith _ _ _ _ _ (fun _ _ => rule.after_resetCapture h) h
  case h_4 | h_5 | h_9 | h_11 | h_12 => exact after_commitWith _ _ _ _ _ (fun _ _ => h) h
  all_goals exact h
theorem after_openConfig (h : P s.faults) : P (openConfig s).2.faults := by
  unfold openConfig
  split_ifs
  case neg => exact rule.after_enterHeld h
  all_goals exact h
theorem after_channelControl (c a) (h : P s.faults) : P (channelControl c a s).2.faults := by
  unfold channelControl
  split
  case h_3 => exact rule.after_giveTrigger _ h
  all_goals exact h
theorem after_dropSenders (slot) (h : P s.faults) : P (dropSenders slot s).2.faults := by
  have dropped (p r) : P (weighAck (removeSenders p r s)).faults := rule.after_weighAck (rule.after_removeSenders p r h)
  unfold dropSenders
  split
  · exact dropped _ _
  · split
    · exact dropped _ _
    · exact h
theorem after_carryOutRequest (c t d) (h : P s.faults) : P (carryOutRequest c t d s).faults := by
  have judged {j : Judged} (h : P j.2.faults) : P (answerJudged c t j).faults := after_answer _ _ _ _ h
  unfold carryOutRequest
  split
  · exact judged (rule.after_openConfig h)
  · exact after_answer _ _ _ _ h
  · exact after_answer _ _ _ _ (by rw [readItem_faults]; exact h)
  · exact judged (by rw [stageItem_faults]; exact h)
  · exact judged (rule.after_commitItem _ _ h)
  · exact ite (after_deferredReply _ h) h
  · exact rule.after_startRecall h
  · split <;> exact after_answer _ _ _ _ h
  · exact after_answer _ _ _ _ (rule.after_acknowledge h)
  · exact judged (rule.after_channelControl _ _ h)
  · exact ite (by rw [makeReply_faults]; exact h) (after_answer _ _ _ _ h)
  · exact after_answer _ _ _ _ h
  · exact judged (rule.after_dropSenders _ h)
  · exact h
theorem after_serviceRequest (d) (h : P s.faults) : P (serviceRequest d s).faults := by
  have restarted : P (restartInactivity s).faults := ite h h
  unfold serviceRequest
  split
  · exact h
  · refine ite restarted ?_
    split
    · exact after_answer _ _ _ _ restarted
    · exact rule.after_carryOutRequest _ _ _ restarted

end ListRule

/-! ## Every step -/

/-- An answer whose next state obeys a rule of the list when the state before does. -/
def AnswerKeeps (P : Faults → Prop) (s : State) (a : Answer) : Prop := ∀ t, a = .next t → P s.faults → P t.faults

namespace AnswerKeeps
variable {P : Faults → Prop} {s : State}

theorem next {t : State} (h : P s.faults → P t.faults) : AnswerKeeps P s (.next t) := by rintro _ ⟨⟩; exact h
theorem stay : AnswerKeeps P s (.next s) := next id
theorem ite {a b : Answer} {c : Prop} [Decidable c] (h : AnswerKeeps P s a) (k : AnswerKeeps P s b) :
    AnswerKeeps P s (if c then a else b) := by
  split
  · exact h
  · exact k

section
variable (rule : ListRule P) {body : State → State} (step : ∀ u : State, P u.faults → P (body u).faults)
include rule step

theorem happens (c) : AnswerKeeps P s (Machine.happens c body s) := ite (next (rule.after_event step)) stay
theorem expires (t) : AnswerKeeps P s (Machine.expires t body s) := by
  refine ite ?_ stay
  split
  · exact next fun h => rule.after_event step (rule.after_advance _ h)
  · exact stay
theorem operationEvent (t) : AnswerKeeps P s (Machine.operationEvent t body s) := by
  refine ite ?_ stay
  split
  · exact next fun h => rule.after_sleepIfDue (rule.after_event step (rule.after_advance _ h))
  · exact stay

end
end AnswerKeeps

section
variable {P : Faults → Prop} (rule : ListRule P) (s : State)
include rule

theorem execFrameSent_keeps (q) : AnswerKeeps P s (execFrameSent q s) := by
  refine .ite ?_ .stay
  split
  · exact .next fun h => rule.after_restartIfDue (rule.after_event (fun _ h => rule.after_frameSentBody _ _ h) h)
  · exact .stay
theorem execPulseEdge_keeps (ch d k) : AnswerKeeps P s (execPulseEdge ch d k s) := by
  have late {u : State} (h : P u.faults) : P (event (standstillExpired ch) u).faults :=
    rule.after_event (fun _ h => rule.after_captureUpdate h) h
  have taken {u : State} (h : P u.faults) : P (event (edge ch d k) u).faults :=
    rule.after_event (fun _ h => rule.after_edge _ _ _ h) h
  exact .ite (.ite (.next fun h => taken (ListRule.ite (late (rule.after_advance _ h)) (rule.after_advance _ h)))
    (.next (rule.after_advance _))) .stay
theorem execShutdownTimerExpiry_keeps : AnswerKeeps P s (execShutdownTimerExpiry s) := by
  refine .ite ?_ .stay
  split
  · exact .next fun h => rule.after_sleepIfDue (rule.after_event (fun _ h => h) (rule.after_advance _ h))
  · exact .stay
theorem execStorePageStep_keeps (b) : AnswerKeeps P s (execStorePageStep b s) := by
  unfold execStorePageStep
  split
  · exact .operationEvent rule (fun _ h => rule.after_storeStep _ _ h) _
  · exact .stay
theorem execStoreCompletion_keeps : AnswerKeeps P s (execStoreCompletion s) := by
  unfold execStoreCompletion
  split
  · exact .ite (.operationEvent rule (fun _ h => rule.after_storeDone _ h) _) .stay
  · exact .stay
theorem execRecallPageRead_keeps : AnswerKeeps P s (execRecallPageRead s) := by
  unfold execRecallPageRead
  split
  · exact .operationEvent rule (fun _ h => rule.after_readDone _ h) _
  · exact .stay
theorem execRecallCompletion_keeps : AnswerKeeps P s (execRecallCompletion s) := by
  unfold execRecallCompletion
  split
  · exact .ite .stay (.operationEvent rule (fun _ h => rule.after_readDone _ h) _)
  · exact .stay

/-- Every command keeps a rule of the list. -/
theorem exec_keeps (i : Instr) : AnswerKeeps P s (exec i s) := by
  cases i
  case frameReceived q f =>
    exact .ite (.happens rule (fun _ h => ListRule.ite (rule.after_serviceRequest _ h) (rule.after_framePath _ _ h)) _)
      fun _ e => nomatch e
  case frameSent q => exact execFrameSent_keeps rule s q
  case waitingHolderPlaced q =>
    have handed (u : State) (h : P u.faults) : P ((handPlace q u).onPort q PortUnit.offerLink).faults :=
      rule.after_handPlace q h
    exact .happens (body := fun u => completeAll ((handPlace q u).onPort q PortUnit.offerLink)) rule
      (fun u h => rule.after_completeAll (handed u h)) _
  case linkLost q =>
    exact .ite (.next fun h =>
      rule.after_restartIfDue (rule.after_event (fun _ h => rule.after_linkLostBody _ h) h)) .stay
  case linkRestored q => exact .happens (body := linkRestoredBody q) rule (fun _ h => rule.after_ended _ _ h) _
  case pulseEdge ch d k => exact execPulseEdge_keeps rule s ch d k
  case windowTimerExpiry ch =>
    exact .expires (body := windowExpired ch) rule (fun _ h => rule.after_captureUpdate h) _
  case standstillTimerExpiry ch =>
    exact .expires (body := standstillExpired ch) rule (fun _ h => rule.after_captureUpdate h) _
  case disagreementTimerExpiry =>
    exact .expires (body := disagreementExpired) rule (fun _ h => rule.begun _ _ _ _ nofun h) _
  case lossTimerExpiry ch =>
    exact .expires (body := lossExpired ch) rule (fun _ h => rule.after_captureUpdate (rule.begun _ _ _ _ nofun h)) _
  case returnTimerExpiry ch =>
    exact .expires (body := returnExpired ch) rule
      (fun _ h => rule.after_captureUpdate (rule.after_ended _ _ h)) _
  case freshnessTimerExpiry n => exact .expires rule (fun _ h => rule.after_freshnessExpired _ h) _
  case senderTimerExpiry p => exact .expires rule (fun _ h => rule.after_senderExpired _ h) _
  case silentTimeEnd p => exact .expires rule (fun _ h => rule.after_weighAck (rule.after_removePlace _ h)) _
  case governorPeriod => exact .expires rule (fun _ h => rule.after_governorBody h) _
  case overspeedTimeLimit => exact .happens (body := overspeedBegins) rule (fun _ h => rule.begun _ _ _ _ nofun h) _
  case armPeriod => exact .expires rule (fun _ h => rule.after_armPeriodBody h) _
  case motionTimerExpiry a => exact .expires rule (fun _ h => rule.after_motionExpired _ h) _
  case floatTimerExpiry a => exact .expires (body := floatExpired a) rule (fun _ h => rule.begun _ _ _ _ nofun h) _
  case waitTimerExpiry a => exact .expires (body := waitExpired a) rule (fun _ h => rule.begun _ _ _ _ nofun h) _
  case allocatorPeriod => exact .expires (body := allocatorBody) rule (fun _ h => h) _
  case sprayPeriod => exact .expires rule (fun _ h => rule.after_sprayBody h) _
  case lingerEnd => exact .happens (body := onSpray endLinger) rule (fun _ h => h) _
  case intervalTimerExpiry ch =>
    exact .expires (body := intervalExpired ch) rule (fun _ h => rule.after_giveTrigger _ h) _
  case sendCompletion ch => exact .happens rule (fun _ h => rule.after_completeIfDone _ h) _
  case cutoffActive =>
    exact .ite .stay (.ite (.next (rule.after_event fun _ h => rule.after_cutoffActiveBody h)) (.next id))
  case cutoffInactive =>
    exact .ite .stay (.ite (.next (rule.after_event fun _ h => rule.after_cutoffInactiveBody h)) (.next id))
  case releaseTimerExpiry => exact .expires rule (fun _ h => rule.after_weighRelease h) _
  case detectionTimeExpiry k n => exact .expires rule (fun _ h => rule.after_ended _ _ h) _
  case ignitionShutdown =>
    exact .ite (.ite (.next fun h => rule.after_event (s := { s with ignLine := false })
      (fun _ h => rule.after_startShutdown h) h) (.next id)) .stay
  case shutdownTimerExpiry => exact execShutdownTimerExpiry_keeps rule s
  case sleepEntry => exact .next rule.after_sleepIfDue
  case wake =>
    exact .ite (.next fun h => rule.after_event (s := { s with ignLine := true })
      (fun _ h => rule.after_warmRestart _ h) h) (.next id)
  case coldStart => exact .next fun _ => rule.after_finish (rule.after_coldStart _)
  case serviceRestart => exact .next rule.after_restartIfDue
  case inactivityTimerExpiry => exact .expires (body := closeSession) rule (fun _ h => h) _
  case storePageStep b => exact execStorePageStep_keeps rule s b
  case storeCompletion => exact execStoreCompletion_keeps rule s
  case recallPageRead => exact execRecallPageRead_keeps rule s
  case recallCompletion => exact execRecallCompletion_keeps rule s
  case powerLoss => exact .ite .stay (.next fun h => by rw [losePower_faults]; exact h)
  all_goals exact .happens rule (fun _ h => rule.after_serviceRequest _ h) _

theorem idle_keeps : AnswerKeeps P s (idle s) := by
  refine .ite ?_ .stay
  split
  · next i _ => exact exec_keeps rule { s with choices := s.choices + 1 } i
  · exact .next (rule.after_advance (s := s) 1)

/-- Every step keeps a rule of the list. -/
theorem step_keeps {t : State} (e : step s = .next t) (h : P s.faults) : P t.faults := by
  unfold step at e
  split at e
  · next i rest _ => exact exec_keeps rule { s with pending := rest } i t e h
  · exact idle_keeps rule s t e h

end

/-- Settles O10: both parts are rules that a report of a begin and a thinning of the list keep, and a step does nothing
else to the list but empty it at a cold start. -/
theorem stepKeepsFaultList : Obligations.StepKeepsFaultList := by
  unfold Obligations.StepKeepsFaultList
  exact ⟨fun s t ok e => faultListOk_iff.2 (step_keeps listOk_rule s e (faultListOk_iff.1 ok)),
    fun s t ok e => faultOrdersOk_iff.2 (step_keeps ordersOk_rule s e (faultOrdersOk_iff.1 ok))⟩

end Sys2Proof.FaultList
end

section
/-! SUPPORT. What a report of a begin does to the fault list, case by case (10 R156 to R158, R166): O50. -/

namespace Sys2Proof.FaultList
open Sys2Proof Sys2Proof.Machine

/-! ## Conditions that wait to be observed again (R166) -/

section
variable {f : Faults} {k : Kind} {n : Nat}

theorem waits_false_iff : f.waits k n = false ↔ ∀ u ∈ f.unconfirmed, ¬(u.kind = k ∧ u.subject = n) := by
  unfold Faults.waits
  rw [List.any_eq_false]
  simp only [Bool.and_eq_true, beq_iff_eq]

theorem waits_of_subset {g : Faults} (h : f.waits k n = false) (sub : g.unconfirmed ⊆ f.unconfirmed) :
    g.waits k n = false := waits_false_iff.2 fun u mem => waits_false_iff.1 h u (sub mem)

theorem settled_subset (f : Faults) (k n) : (f.settled k n).unconfirmed ⊆ f.unconfirmed := List.filter_subset_self _

/-- A settled condition waits no more. -/
theorem settled_waits (f : Faults) (k n) : (f.settled k n).waits k n = false := by
  refine waits_false_iff.2 fun u mem => ?_
  have other := (List.mem_filter.1 mem).2
  simpa [imp_iff_not_or] using other

theorem mergeReport_unconfirmed (k n sev counted) (s : State) :
    (mergeReport k n sev counted s).faults.unconfirmed = s.faults.unconfirmed := by
  unfold mergeReport
  split
  · rfl
  · rw [markFaultChangeIf_faults]
theorem enterRecord_unconfirmed (k n sev) (s : State) :
    (enterRecord k n sev s).faults.unconfirmed ⊆ s.faults.unconfirmed := by
  unfold enterRecord
  split
  · exact List.Subset.refl _
  · split
    · exact settled_subset ..
    · rw [mergeReport_unconfirmed]; exact List.Subset.refl _
theorem reportBegun_unconfirmed (k n sev) (s : State) :
    (reportBegun k n sev s).faults.unconfirmed ⊆ (s.faults.settled k n).unconfirmed := by
  unfold reportBegun
  dsimp only
  split
  · split
    · rw [markFaultChangeIf_faults]; exact List.Subset.refl _
    · exact List.Subset.refl _
  · split
    · rw [mergeReport_unconfirmed]; exact List.Subset.refl _
    · exact enterRecord_unconfirmed ..
theorem reportEnded_unconfirmed (k n) (s : State) :
    (reportEnded k n s).faults.unconfirmed = (s.faults.settled k n).unconfirmed := by
  unfold reportEnded
  dsimp only
  split
  · rfl
  · split <;> rfl

/-- A condition that has been reported waits no more. -/
theorem reportBegun_waits (k n sev) (s : State) : (reportBegun k n sev s).faults.waits k n = false :=
  waits_of_subset (settled_waits s.faults k n) (reportBegun_unconfirmed ..)
theorem reportEnded_waits (k n) (s : State) : (reportEnded k n s).faults.waits k n = false :=
  waits_of_subset (settled_waits s.faults k n) fun _ mem => reportEnded_unconfirmed k n s ▸ mem

end

/-! ## Where a condition stands in the list -/

section
variable {f : Faults} {k : Kind} {n : Nat}

/-- The record of a kind and subject is the one that the search finds. -/
theorem ListOk.find_known (h : ListOk f) {i : Fin 15} {r : FaultRec} (here : f.places[i] = some r) (kind : r.kind = k)
    (subject : r.subject = n) : f.find k n = some i := by
  cases found : f.find k n with
  | none => exact absurd ⟨kind, subject⟩ (find_none_iff.1 found i r here)
  | some j =>
    obtain ⟨q, there, qk, qn⟩ := find_some found
    rw [h.unique i j r q here there (kind.trans qk.symm) (subject.trans qn.symm)]

theorem find_none_of_unknown (h : ∀ (i : Fin 15) (r : FaultRec), ¬(f.places[i] = some r ∧ r.kind = k ∧ r.subject = n)) :
    f.find k n = none := find_none_iff.2 fun i r here is => h i r ⟨here, is⟩

end

/-! ## A known condition (R156) -/

/-- A record after a report, its severity raised to a higher one. -/
theorem takeReport_eq (r : FaultRec) (counted sev) : r.takeReport counted sev =
    { r with latched := false
             count := if counted then min (r.count + 1) 255 else r.count
             severity := if r.severity < sev then sev else r.severity
             announced := if r.severity < sev then false else r.announced } := by
  unfold FaultRec.takeReport
  rw [max_def_lt]

/-- The aggregate takes the report of a condition and, where it is new, the condition (R158). -/
theorem join_eq (a : FaultRec) (k n counted sev) : a.join k n counted sev = { a.takeReport counted sev with
    merged := if a.merged.contains (k, n) then a.merged else a.merged ++ [(k, n)] } := rfl

theorem join_of_mem {a : FaultRec} {k n} (mem : (k, n) ∈ a.merged) (counted sev) :
    a.join k n counted sev = a.takeReport counted sev := by
  rw [join_eq, if_pos (List.contains_iff_mem.2 mem)]
  rfl

section
variable {k : Kind} {n : Nat} {s : State}

/-- The record of a known condition takes the report. -/
theorem reportBegun_of_find (sev) {i : Fin 15} {r : FaultRec} (found : s.faults.find k n = some i)
    (here : s.faults.places[i] = some r) :
    (reportBegun k n sev s).faults = { s.faults.settled k n with
      places := s.faults.places.set i (some (r.takeReport (!s.faults.waits k n) sev)) } := by
  have here' : (s.faults.settled k n).places[i] = some r := here
  unfold reportBegun
  dsimp only
  rw [settled_find, found]
  dsimp only
  rw [here']
  dsimp only
  rw [markFaultChangeIf_faults]
  rfl

/-- The aggregate takes the report of a merged condition. -/
theorem reportBegun_of_merged (sev) {a : FaultRec} (absent : s.faults.find k n = none)
    (merged : s.faults.mergedHas k n = true) (here : s.faults.aggregate = some a) :
    (reportBegun k n sev s).faults = { s.faults.settled k n with
      aggregate := some (a.takeReport (!s.faults.waits k n) sev) } := by
  have mem : (k, n) ∈ a.merged := by
    obtain ⟨b, e, mem⟩ := mergedHas_iff.1 merged
    cases here.symm.trans e
    exact mem
  have here' : (s.faults.settled k n).aggregate = some a := here
  unfold reportBegun
  dsimp only
  rw [settled_find, absent, settled_mergedHas, merged]
  dsimp only
  rw [if_pos rfl, mergeReport]
  dsimp only
  rw [here']
  dsimp only
  rw [markFaultChangeIf_faults, join_of_mem mem]

/-! ## A new record (R157, R158) -/

/-- A condition without a record and not merged gets one. -/
theorem reportBegun_of_unknown (sev) (absent : s.faults.find k n = none) (apart : s.faults.mergedHas k n = false) :
    reportBegun k n sev s = enterRecord k n sev { s with faults := s.faults.settled k n } := by
  unfold reportBegun
  dsimp only
  rw [settled_find, absent, settled_mergedHas, apart]
  exact if_neg nofun

theorem enterRecord_free (sev) {i : Fin 15} (free : s.faults.places[i] = none)
    (lowest : ∀ j : Fin 15, j < i → s.faults.places[j] ≠ none) : enterRecord k n sev s = placeRecord i k n sev s := by
  have found : vfind s.faults.places (·.isNone) = some i :=
    vfind_eq_some i (Option.isNone_iff_eq_none.2 free) fun j lt =>
      Bool.eq_false_iff.2 fun none => lowest j lt (Option.isNone_iff_eq_none.1 none)
  unfold enterRecord
  rw [found]

theorem no_place_free (full : ∀ j : Fin 15, s.faults.places[j] ≠ none) : vfind s.faults.places (·.isNone) = none :=
  vfind_eq_none fun j => Bool.eq_false_iff.2 fun none => full j (Option.isNone_iff_eq_none.1 none)

theorem enterRecord_evicts (sev) {i : Fin 15} {r : FaultRec} (full : ∀ j : Fin 15, s.faults.places[j] ≠ none)
    (victim : s.faults.victim sev = some (i, r)) :
    enterRecord k n sev s = placeRecord i k n sev { s with faults := s.faults.settled r.kind r.subject } := by
  unfold enterRecord
  rw [no_place_free full]
  dsimp only
  rw [victim]

theorem enterRecord_merges (sev) (full : ∀ j : Fin 15, s.faults.places[j] ≠ none)
    (victim : s.faults.victim sev = none) : enterRecord k n sev s = mergeReport k n sev true s := by
  unfold enterRecord
  rw [no_place_free full]
  dsimp only
  rw [victim]

end

/-! ### The record that gives way (R158) -/

section
variable (f : Faults) (sev : Fin 4)

/-- A record that may give way to a condition of a severity. -/
def MayGo (i : Fin 15) (r : FaultRec) : Prop := f.places[i] = some r ∧ r.severity ≤ 1 ∧ r.severity ≤ sev

/-- The choice between the best so far and the record of a place. -/
def older (best : Option (Fin 15 × FaultRec)) (i : Fin 15) : Option (Fin 15 × FaultRec) :=
  match f.places[i] with
  | none => best
  | some r =>
    if r.severity ≤ 1 ∧ r.severity ≤ sev then
      match best with
      | none => some (i, r)
      | some (_, q) => if r.order < q.order then some (i, r) else best
    else best

theorem victim_eq : f.victim sev = (allFin 15).foldl (older f sev) none := rfl

/-- A choice among places: the oldest record that may give way, or none where no record may. -/
def Oldest (seen : List (Fin 15)) : Option (Fin 15 × FaultRec) → Prop
  | none => ∀ i ∈ seen, ∀ r, ¬MayGo f sev i r
  | some (i, r) => MayGo f sev i r ∧ ∀ j ∈ seen, ∀ q, MayGo f sev j q → r.order ≤ q.order

variable {f sev}

theorem older_oldest {seen : List (Fin 15)} {best} (h : Oldest f sev seen best) (i : Fin 15) :
    Oldest f sev (i :: seen) (older f sev best i) := by
  have stays (no : ∀ r, ¬MayGo f sev i r) : Oldest f sev (i :: seen) best := by
    match best with
    | none => exact List.forall_mem_cons.2 ⟨no, h⟩
    | some (_, _) => exact ⟨h.1, List.forall_mem_cons.2 ⟨fun r may => absurd may (no r), h.2⟩⟩
  unfold older
  split
  · next free => exact stays fun r may => nomatch free.symm.trans may.1
  · next r here =>
    have only {q} (may : MayGo f sev i q) : q = r := Option.some.inj (may.1.symm.trans here)
    split
    · next low =>
      match best with
      | none => exact ⟨⟨here, low⟩, List.forall_mem_cons.2
          ⟨fun q may => (congrArg FaultRec.order (only may)).ge, fun j mem q may => absurd may (h j mem q)⟩⟩
      | some (j, p) =>
        obtain ⟨may, first⟩ := h
        dsimp only
        split
        · next lt => exact ⟨⟨here, low⟩, List.forall_mem_cons.2
            ⟨fun q may => (congrArg FaultRec.order (only may)).ge, fun j mem q may => lt.le.trans (first j mem q may)⟩⟩
        · next le => exact ⟨may, List.forall_mem_cons.2
            ⟨fun q may => (not_lt.1 le).trans (congrArg FaultRec.order (only may)).ge, first⟩⟩
    · next high => exact stays fun q may => high (only may ▸ may.2)

theorem foldl_older_oldest (l : List (Fin 15)) {seen best} (h : Oldest f sev seen best) :
    Oldest f sev (l.reverse ++ seen) (l.foldl (older f sev) best) := by
  induction l generalizing seen best with
  | nil => exact h
  | cons i l ih =>
    rw [List.reverse_cons, List.append_assoc]
    exact ih (older_oldest h i)

theorem victim_oldest : Oldest f sev ((allFin 15).reverse ++ []) (f.victim sev) := by
  rw [victim_eq]
  exact foldl_older_oldest (allFin 15) (best := none) fun i mem => nomatch mem

theorem mem_reverse_allFin (i : Fin 15) : i ∈ (allFin 15).reverse ++ [] := by
  rw [List.append_nil, List.mem_reverse]
  exact Signals.mem_allFin i

/-- The victim is the record that may give way and is older than every other that may. -/
theorem victim_of_oldest {i : Fin 15} {r : FaultRec} (may : MayGo f sev i r)
    (oldest : ∀ j q, MayGo f sev j q → j ≠ i → r.order < q.order) : f.victim sev = some (i, r) := by
  have chosen : Oldest f sev _ (f.victim sev) := victim_oldest
  match e : f.victim sev with
  | none =>
    rw [e] at chosen
    exact absurd may (chosen i (mem_reverse_allFin i) r)
  | some (j, q) =>
    rw [e] at chosen
    obtain ⟨mayToo, first⟩ := chosen
    have same : j = i := by
      by_contra ne
      exact absurd (oldest j q mayToo ne) (not_lt.2 (first i (mem_reverse_allFin i) r may))
    subst same
    rw [Option.some.inj (mayToo.1.symm.trans may.1)]

theorem victim_none (no : ∀ i r, ¬MayGo f sev i r) : f.victim sev = none := by
  have chosen : Oldest f sev _ (f.victim sev) := victim_oldest
  match e : f.victim sev with
  | none => rfl
  | some (j, q) =>
    rw [e] at chosen
    exact absurd chosen.1 (no j q)

end

/-- The aggregate takes a further condition, or is made of it (R158). -/
theorem mergeReport_new {k : Kind} {n : Nat} {s : State} (sev counted) (apart : s.faults.mergedHas k n = false) :
    (mergeReport k n sev counted s).faults.places = s.faults.places
    ∧ (mergeReport k n sev counted s).faults.aggregate = some (match s.faults.aggregate with
        | none => firstAggregate s k n sev
        | some a => { a.takeReport counted sev with merged := a.merged ++ [(k, n)] }) := by
  unfold mergeReport
  cases here : s.faults.aggregate with
  | none => exact ⟨rfl, rfl⟩
  | some a =>
    have new : a.merged.contains (k, n) = false := by
      refine Bool.eq_false_iff.2 fun mem => Bool.eq_false_iff.1 apart (mergedHas_iff.2 ⟨a, here, ?_⟩)
      exact List.contains_iff_mem.1 mem
    dsimp only
    rw [markFaultChangeIf_faults, join_eq, new, if_neg nofun]
    exact ⟨rfl, rfl⟩

/-! ## O50 -/

/-- Settles O50: where the search finds a condition, and otherwise what the entry of a new record finds. -/
theorem conditionBegins : Obligations.ConditionBegins := by
  unfold Obligations.ConditionBegins
  constructor
  · intro k n sev s waits ok
    have ok := faultListOk_iff.1 ok
    refine ⟨?_, ?_, reportBegun_waits .., reportBegun_holds .., reportBegun_reports ..⟩
    · rintro i r ⟨here, kind, subject⟩
      rw [reportBegun_of_find sev (ok.find_known here kind subject) here, waits, takeReport_eq]
      rfl
    · intro a unknown merged here
      rw [reportBegun_of_merged sev (find_none_of_unknown unknown) merged here, waits, takeReport_eq]
      rfl
  · intro k n sev s waits ok
    have ok := faultListOk_iff.1 ok
    have settled : s.faults.settled k n = s.faults := settled_of_waits waits
    have unknown_eq (absent : s.faults.find k n = none) (apart : s.faults.mergedHas k n = false) :
        reportBegun k n sev s = enterRecord k n sev s := by rw [reportBegun_of_unknown sev absent apart, settled]
    obtain ⟨latch, level⟩ := Prod.mk.inj (Cutoff.reportBegun_alarm k n sev s)
    refine ⟨?_, ?_, ?_, ?_, ?_, reportBegun_holds .., level, latch, reportBegun_reports ..⟩
    · rintro i r ⟨here, kind, subject⟩
      rw [reportBegun_of_find sev (ok.find_known here kind subject) here, waits, settled, takeReport_eq]
      rfl
    · intro a unknown merged here
      rw [reportBegun_of_merged sev (find_none_of_unknown unknown) merged here, waits, settled, takeReport_eq]
      rfl
    · rintro i ⟨unknown, apart⟩ free lowest
      rw [unknown_eq (find_none_of_unknown unknown) apart, enterRecord_free sev free lowest]
      rfl
    · rintro i r ⟨unknown, apart⟩ full may oldest
      rw [unknown_eq (find_none_of_unknown unknown) apart, enterRecord_evicts sev full (victim_of_oldest may oldest)]
      exact ⟨rfl, rfl, rfl⟩
    · rintro ⟨unknown, apart⟩ full no
      rw [unknown_eq (find_none_of_unknown unknown) apart, enterRecord_merges sev full (victim_none no)]
      obtain ⟨places, aggregate⟩ := mergeReport_new sev true apart
      refine ⟨places, aggregate.trans ?_⟩
      cases s.faults.aggregate with
      | none => rfl
      | some a => dsimp only; rw [takeReport_eq]; rfl

end Sys2Proof.FaultList
end

section
/-! SUPPORT. What a report of an end does to the fault list, case by case (10 R159), and the end of a detection time (10
R166): O51. -/

namespace Sys2Proof.FaultList
open Sys2Proof Sys2Proof.Machine

/-! ## The end of a condition (R159) -/

section
variable {k : Kind} {n : Nat} {s : State}

/-- The record of a condition leaves the list, or stays LATCHED. -/
theorem reportEnded_of_find {i : Fin 15} {r : FaultRec} (found : s.faults.find k n = some i)
    (here : s.faults.places[i] = some r) :
    (reportEnded k n s).faults = { s.faults.settled k n with places := s.faults.places.set i r.ended } := by
  have here' : (s.faults.settled k n).places[i] = some r := here
  unfold reportEnded
  dsimp only
  rw [settled_find, found]
  dsimp only
  rw [here']
  rfl

/-- A merged condition leaves the merged set. -/
theorem reportEnded_of_merged {a : FaultRec} (absent : s.faults.find k n = none)
    (merged : s.faults.mergedHas k n = true) (here : s.faults.aggregate = some a) :
    (reportEnded k n s).faults = { s.faults.settled k n with aggregate := some (a.without k n) } := by
  have here' : (s.faults.settled k n).aggregate = some a := here
  unfold reportEnded
  dsimp only
  rw [settled_find, absent, settled_mergedHas, merged]
  dsimp only
  rw [if_pos rfl, here']
  rfl

/-- The end of a condition that the list does not know is ignored. -/
theorem reportEnded_of_unknown (absent : s.faults.find k n = none) (apart : s.faults.mergedHas k n = false) :
    (reportEnded k n s).faults = s.faults.settled k n := by
  unfold reportEnded
  dsimp only
  rw [settled_find, absent, settled_mergedHas, apart]
  rfl

end

/-! ## Detection times (R166) -/

section
variable {f : Faults} {k : Kind} {n : Nat}

/-- The time left is that of the first kept condition of the kind and subject. -/
theorem detectionLeft_of_first {l m : List Unconfirmed} {u : Unconfirmed} (split : f.unconfirmed = l ++ u :: m)
    (first : ∀ v ∈ l, ¬(v.kind = k ∧ v.subject = n)) (kind : u.kind = k) (subject : u.subject = n) :
    detectionLeft k n f = u.timer := by
  have found : f.unconfirmed.find? (fun u => u.kind == k && u.subject == n) = some u := by
    refine List.find?_eq_some_iff_append.2 ⟨by simp [kind, subject], l, m, split, fun v mem => ?_⟩
    have other := first v mem
    simpa [imp_iff_not_or] using other
  unfold detectionLeft
  rw [found]
  rfl

theorem detectionLeft_of_settled (h : f.waits k n = false) : detectionLeft k n f = none := by
  have absent : f.unconfirmed.find? (fun u => u.kind == k && u.subject == n) = none :=
    List.find?_eq_none.2 (List.any_eq_false.1 h)
  unfold detectionLeft
  rw [absent]
  rfl

end

/-! ## O51 -/

/-- Settles O51: where the search finds the condition whose end is reported; an expiry is such a report. -/
theorem conditionEnds : Obligations.ConditionEnds := by
  unfold Obligations.ConditionEnds
  refine ⟨fun k n s general list => ?_,
    fun s k n => ⟨?_, fun settled => expires_not (.inr (detectionLeft_of_settled settled))⟩⟩
  · have ok := faultListOk_iff.1 list
    refine ⟨?_, ?_, ?_, (Signals.reportEnded_ends n list general).holds, reportEnded_reports ..⟩
    · rintro i r ⟨here, kind, subject⟩
      rw [reportEnded_of_find (ok.find_known here kind subject) here]
      exact ⟨rfl, rfl⟩
    · intro a unknown merged here
      rw [reportEnded_of_merged (find_none_of_unknown unknown) merged here]
      exact ⟨rfl, rfl⟩
    · intro unknown apart
      rw [reportEnded_of_unknown (find_none_of_unknown unknown) apart]
      exact ⟨rfl, rfl⟩
  · intro l m u r run split first kind subject timer
    have due : detectionLeft k n s.faults = some r := (detectionLeft_of_first split first kind subject).trans timer
    exact .of (expires_of run due) ⟨rfl, reportEnded_waits .., fun list general =>
      (Signals.reportEnded_ends n (Signals.openedAt_faultListOk list r) general).holds⟩

end Sys2Proof.FaultList
end
